-- ==== Sys2Proof/Word.lean ====
section
/-!
DEFINITION. The element word of the block and the widths that do not depend on the configuration
(`00_scope.md` R4, `30_encoding.md` R47, R52, R54).
-/

namespace Sys2Proof

/-- `ELEM_W`, the width of one storage element: the named parameter whose value is 8 for this
hardware (R4). -/
abbrev elemW : Nat := 8

/-- One storage element: `ELEM_W` bits, unsigned (R4, R10). -/
abbrev Elem := BitVec elemW

/-- The operation selector `req[1:0]` (R47, R48). -/
abbrev OpCode := BitVec 2

/-- The `status` field of a response, `resp[2:0]` (R52, R54). -/
abbrev StatusCode := BitVec 3

/-- `RESP_W = ELEM_W + 3`, the width of a response word (R7, R54). -/
abbrev respW : Nat := elemW + 3

end Sys2Proof
end

