-- ==== Sys2Proof/Config.lean ====
section
/-!
DEFINITION. The configuration record of the block (`00_scope.md` section 5) and its one free value:
what the response wires carry where the spec leaves them unspecified.
-/

namespace Sys2Proof

/-- The two OPEN parameters of the spec (R5, R6). `ELEM_W` is the constant `elemW` (R4). -/
structure Config where
  /-- `IDX_W`, the width of WIDX, RIDX, CAP and of the operand of CONSTRUCT (R5). -/
  idxW : Nat
  /-- `DEPTH`, the number of physical slots of STORE (R6). -/
  depth : Nat
deriving DecidableEq, Repr

/-- The constraints the spec puts on the parameters: `IDX_W >= 1` (R5) and
`1 <= DEPTH <= 2^IDX_W - 1` (R6). -/
abbrev Config.Legal (c : Config) : Prop :=
  1 ≤ c.idxW ∧ 1 ≤ c.depth ∧ c.depth ≤ 2 ^ c.idxW - 1

/-- `ARG_W = max(IDX_W, ELEM_W)`, the width of the argument field (R7). -/
abbrev Config.argW (c : Config) : Nat := max c.idxW elemW

/-- `REQ_W = ARG_W + 2`, the width of a request word (R7, R48). -/
abbrev Config.reqW (c : Config) : Nat := c.argW + 2

/-- FREE VALUE (log 4; R53 "a free draw under no law", R31, R58): what the response wires carry in
the bits no response defines. It has no body: nothing is known of it but its type, and each draw is
a value of its own. DESIGN CHOICE, safe: nothing about the bits can be proved. -/
opaque Config.freeResponseWires : Nat → BitVec respW

end Sys2Proof
end

