-- ==== Sys2Proof/Machine/Reference.lean ====
section
/-!
DEFINITION. The configuration the reset state of the model is given (log 1). The spec leaves both
parameters OPEN; no statement rests on the numbers here.
-/

namespace Sys2Proof.Machine

/-- DESIGN CHOICE, unsafe (log 1): the spec leaves `IDX_W` and `DEPTH` open (R5, R6). `IDX_W = 8`
makes the request word the ten bits that `spec/opcode_table.json` shows; `DEPTH = 16` lets every
status of R52 occur. -/
def referenceConfig : Config where
  idxW := 8
  depth := 16

end Sys2Proof.Machine
end

