-- ==== Sys2Proof/Syntax.lean ====
section
/-!
DEFINITION. The operations of the block, one constructor for each row of `spec/opcode_table.json`
(`30_encoding.md` R47).
-/

namespace Sys2Proof

/-- The four operations with the operands the decoder extracts (R47, R49, R50, R51). -/
inductive Instr where
  /-- CONSTRUCT, `op = 0b00`: `size` is an unsigned `IDX_W`-bit number (R49, R69). -/
  | construct (size : Nat)
  /-- PUSH, `op = 0b01`: `element` is stored as it is (R50, R76). -/
  | push (element : Elem)
  /-- POP, `op = 0b10`: no operand (R51, R79). -/
  | pop
  /-- TEARDOWN, `op = 0b11`: no operand (R51, R90). -/
  | teardown
deriving DecidableEq, Repr

end Sys2Proof
end

