-- ==== Sys2Proof/Machine/State.lean ====
section
/-!
DEFINITION. The state of the machine as plain data: the five items of `10_state.md` R13, and the
block's port (the inputs still to come and the last response), with the reasons a step can stop.
-/

namespace Sys2Proof.Machine

/-- `PHASE`, the life-cycle state. Its three values; the code 0b11 cannot be written down (R14). -/
inductive Phase where
  | uninit
  | active
  | torn
deriving DecidableEq, Repr

/-- The six status names; the codes 6 and 7 cannot be written down (R52). -/
inductive Status where
  | ok
  | overflow
  | underflow
  | allocFail
  | badSize
  | badState
deriving DecidableEq, Repr

/-- The slot array STORE: pairs of slot number and element, slots strictly rising. A slot that is
not listed is *unwritten*: it holds no value (R18). `Memory.Wf` in `Machine/Ops.lean` is the form. -/
abbrev Memory := List Host.Cell

/-- The complete state of the block (R13). The index registers are natural numbers, which the spec
allows (R5, R61); `Safety.lean` states that they stay within `IDX_W` bits (DESIGN CHOICE, safe: log 2). -/
structure Block where
  /-- S0 `PHASE` (R14). -/
  phase : Phase
  /-- S1 `WIDX`, the next slot to be written (R15). -/
  widx : Nat
  /-- S2 `RIDX`, the next slot to be read (R16). -/
  ridx : Nat
  /-- S3 `CAP`, the requested capacity: the modulus of the index arithmetic (R17). -/
  cap : Nat
  /-- S4 `STORE` (R18). -/
  store : Memory
deriving DecidableEq, Repr

/-- One response (R54). `dout` is absent where the spec says that no element is produced (R53:
"A model treats it as absent, or as a free draw"; the wires are `State.responseWires`). DESIGN
CHOICE, unsafe for a claim that reads the absence as more than "no element is specified": log 4. -/
structure Response where
  status : Status
  dout : Option Elem
deriving DecidableEq, Repr

/-- What the requester presents in one step (R8, R121). DESIGN CHOICE, unsafe: never `rst` and a
request in the same step (log 6). -/
inductive Input where
  /-- `rst` is asserted (R116). -/
  | reset
  /-- `req_valid = 0`: the request word is ignored (R58). -/
  | idle (req : Nat)
  /-- `req_valid = 1` with a request word (R48, R58). -/
  | request (req : Nat)
deriving DecidableEq, Repr

/-- The machine: the configuration, which no step writes, the block's state, and the model's own
fields for the port. DESIGN CHOICE: safe over all states, unsafe for a claim about `State.reset`
alone (log 1, log 3, log 4). -/
structure State where
  /-- `IDX_W` and `DEPTH` (R5, R6). -/
  cfg : Config
  /-- The five items of R13. -/
  blk : Block
  /-- The model's own: the inputs the requester will still present, the next one first (log 3). -/
  inbox : List Input
  /-- The model's own: the response the last step produced, if it produced one (R54, R58; log 4). -/
  resp : Option Response
  /-- The model's own: names the free value of the unspecified response wires (R53; log 4). -/
  draws : Nat
deriving DecidableEq, Repr

/-- The values of R31: `UNINIT`, the registers 0, every slot unwritten. -/
def Block.reset : Block where
  phase := .uninit
  widx := 0
  ridx := 0
  cap := 0
  store := []

/-- The machine right after reset, in any configuration (R31). No input waits (log 3) and no
response has been produced (R31: "unspecified until the first step"; log 4). -/
def State.resetOf (cfg : Config) : State where
  cfg := cfg
  blk := Block.reset
  inbox := []
  resp := none
  draws := 0

/-- The machine right after reset, in the reference configuration (R31; log 1). -/
def State.reset : State := State.resetOf referenceConfig

/-- The model faults of R34 and R66: requirements of the spec's own primitives that no run from
reset breaks (R39). The hardware itself never faults. All are safe: the model stops. -/
inductive Fault where
  /-- `IndexOutOfRange(i)` (R11, R34, R38): raised by `memRead`, `memWrite` and `nextIndex` for a
  slot outside the constructed length or the physical array, or outside the ACTIVE phase. Safe. -/
  | indexOutOfRange (i : Nat)
  /-- `UnwrittenSlot(i)` (R11, R18, R34): raised by `memRead` for a slot that holds no value. Safe. -/
  | unwrittenSlot (i : Nat)
  /-- The remainder by zero that R66 forbids: raised by `nextIndex` when `CAP = 0`. Safe. -/
  | remainderByZero
deriving DecidableEq, Repr

/-- No request is refused (R55, R104): no arm of `exec` and no operation raises a refusal. -/
inductive Refusal where
  /-- An instruction without a meaning yet, by its mnemonic. Raised by no arm. Safe. -/
  | notModelled (mnemonic : String)
deriving DecidableEq, Repr

end Sys2Proof.Machine
end

