-- ==== Sys2Proof/Machine/Ops.lean ====
section
/-!
DEFINITION. The named operations every meaning is written over: the slot array, the two memory
primitives of `20_memory.md` R34, the register writes, opening and closing a buffer, and
`respond`, which ends a step (`00_scope.md` R11). The block takes no exception and returns from none
(`60_exceptions.md` R96, R107, R108): `respond` stands in that place.
-/

namespace Sys2Proof.Machine

/-- The canonical form: slot numbers strictly rising. An unlisted slot holds no value, so no entry
can equal what it reads as (R18; DEDUCED, safe: log 7). -/
abbrev Memory.Wf (m : Memory) : Prop := m.Pairwise (fun a b => a.1 < b.1)

/-- `Memory.Wf` as a Boolean. -/
def Memory.wf (m : Memory) : Bool := decide (Memory.Wf m)

/-- Every slot unwritten (R18, R31, R69, R90). -/
def Memory.unwritten : Memory := []

/-- What slot `i` holds: a value, or nothing when it is unwritten (R18). -/
def Memory.read : Memory → Nat → Option Elem
  | [], _ => none
  | c :: rest, i => if c.1 = i then some c.2 else Memory.read rest i

/-- `STORE[i] <- v`: slot `i` becomes written and no other slot changes (R34). -/
def Memory.write : Memory → Nat → Elem → Memory
  | [], i, v => [(i, v)]
  | c :: rest, i, v =>
    if i < c.1 then (i, v) :: c :: rest
    else if i = c.1 then (i, v) :: rest
    else c :: Memory.write rest i v

/-- The requirement R34 puts on an access: `PHASE == ACTIVE` and `i < CAP`; and the slot exists,
`i < DEPTH` (R38; DESIGN CHOICE, safe: log 5). -/
abbrev State.SlotAccessible (s : State) (i : Nat) : Prop :=
  s.blk.phase = .active ∧ i < s.blk.cap ∧ i < s.cfg.depth

/-- `MemRead(i, 1)` (R11, R34): the element of slot `i`, or the model fault. It changes nothing. -/
def State.memRead (s : State) (i : Nat) : Except Fault Elem :=
  if s.SlotAccessible i then
    match s.blk.store.read i with
    | some e => .ok e
    | none => .error (.unwrittenSlot i)
  else .error (.indexOutOfRange i)

/-- `STORE[i] <- v` as an update of the state (R34). -/
def State.setSlot (s : State) (i : Nat) (v : Elem) : State :=
  { s with blk := { s.blk with store := s.blk.store.write i v } }

/-- `MemWrite(i, 1, v)` (R11, R34): slot `i` holds `v`, or the model fault. -/
def State.memWrite (s : State) (i : Nat) (v : Elem) : Except Fault State :=
  if s.SlotAccessible i then .ok (s.setSlot i v)
  else .error (.indexOutOfRange i)

/-- `WIDX <- v` (R15). -/
def State.setWidx (s : State) (v : Nat) : State := { s with blk := { s.blk with widx := v } }

/-- `RIDX <- v` (R16). -/
def State.setRidx (s : State) (v : Nat) : State := { s with blk := { s.blk with ridx := v } }

/-- The writes of a successful CONSTRUCT (R69): `CAP <- size`, both indices 0, every slot
unwritten, `PHASE <- ACTIVE`. -/
def State.openBuffer (s : State) (size : Nat) : State :=
  { s with blk :=
    { phase := .active, widx := 0, ridx := 0, cap := size, store := Memory.unwritten } }

/-- The writes of a TEARDOWN in the ACTIVE phase (R90): every slot unwritten, the registers 0,
`PHASE <- TORN`. -/
def State.closeBuffer (s : State) : State :=
  { s with blk :=
    { phase := .torn, widx := 0, ridx := 0, cap := 0, store := Memory.unwritten } }

/-- The writes of `rst` (R31, R116). -/
def State.resetBlock (s : State) : State := { s with blk := Block.reset }

/-- What the response outputs show after a step: a response or none. The wires no response defines
take a fresh free value (R53, R58; log 4). -/
def State.showResponse (s : State) (r : Option Response) : State :=
  { s with resp := r, draws := s.draws + 1 }

/-- `respond(status, dout)` (R11): end the step with a response. `none` is `ANY`, no element. -/
def State.respond (s : State) (status : Status) (dout : Option Elem) : State :=
  s.showResponse (some { status := status, dout := dout })

/-- A failing operation: `respond(status, ANY)` and nothing else (R96, R105). -/
def State.fail (s : State) (status : Status) : State := s.respond status none

/-- Goes on with the value of a primitive, or stops with its model fault (R34). -/
def orFault {α : Type} (r : Except Fault α) (k : α → Host.Outcome State Fault Refusal) :
    Host.Outcome State Fault Refusal :=
  match r with
  | .ok a => k a
  | .error f => .fault f

end Sys2Proof.Machine
end

