-- ==== Sys2Proof/Machine/Operands.lean ====
section
/-!
DEFINITION. The index arithmetic of `40_index_arithmetic.md` and the addressing of PUSH and POP
(`42_push_pop.md` R76, R79).
-/

namespace Sys2Proof.Machine

/-- `next(i, c) = (i + 1) mod c` (R59), with the precondition of R59 checked: `c = 0` is the
remainder by zero that R66 says never happens, `i >= c` an index outside the buffer. Both stop with
a model fault that no run reaches (DESIGN CHOICE, safe: log 5). -/
def nextIndex (i c : Nat) : Except Fault Nat :=
  if c = 0 then .error .remainderByZero
  else if c ≤ i then .error (.indexOutOfRange i)
  else .ok ((i + 1) % c)

/-- The slot a PUSH writes: the effective address is the current `WIDX` (R76). -/
def pushSlot (s : State) : Nat := s.blk.widx

/-- The slot a POP reads: the effective address is the current `RIDX` (R79). -/
def popSlot (s : State) : Nat := s.blk.ridx

/-- The post-modified base register of a PUSH, `next(WIDX, CAP)` (R76). -/
def advancedWidx (s : State) : Except Fault Nat := nextIndex s.blk.widx s.blk.cap

/-- The post-modified base register of a POP, `next(RIDX, CAP)` (R79). -/
def advancedRidx (s : State) : Except Fault Nat := nextIndex s.blk.ridx s.blk.cap

/-- `count(w, r, c) = (w + c - r) mod c` (R65), a derived quantity: no operation reads it. It is
used under `c >= 1`, `w < c`, `r < c` only. -/
def occupancy (w r c : Nat) : Nat := (w + c - r) % c

end Sys2Proof.Machine
end

