-- ==== Sys2Proof/Machine/Flags.lean ====
section
/-!
DEFINITION. The comparators (`40_index_arithmetic.md` R62, R63), the EMPTY and FULL outputs
(`10_state.md` R22, R23) and the observation outputs (R24). None is stored.
-/

namespace Sys2Proof.Machine

/-- `is_empty(w, r) = (w == r)` (R62). -/
def isEmpty (w r : Nat) : Bool := w == r

/-- `is_full(w, r, c) = (next(w, c) == r)` (R63). Where `next` has no value (R59, R66) the answer is
false; R63 gives none there (DESIGN CHOICE, unsafe only outside the invariant: log 10). -/
def isFull (w r c : Nat) : Bool :=
  match nextIndex w c with
  | .ok n => n == r
  | .error _ => false

/-- The `EMPTY` output: the comparator, in every phase (R22). -/
def State.emptyOut (s : State) : Bool := isEmpty s.blk.widx s.blk.ridx

/-- The `FULL` output: the comparator in the ACTIVE phase, forced to 0 outside it (R23). -/
def State.fullOut (s : State) : Bool :=
  decide (s.blk.phase = .active) && isFull s.blk.widx s.blk.ridx s.blk.cap

/-- The 2-bit value of `PHASE` (R14). -/
def Phase.code : Phase → BitVec 2
  | .uninit => 0b00#2
  | .active => 0b01#2
  | .torn => 0b10#2

/-- What the requester sees at all times (R22, R23, R24). -/
structure Outputs (cfg : Config) where
  phase : BitVec 2
  widx : BitVec cfg.idxW
  ridx : BitVec cfg.idxW
  cap : BitVec cfg.idxW
  empty : Bool
  full : Bool

/-- The observation outputs of a state (R24). -/
def State.outputs (s : State) : Outputs s.cfg where
  phase := s.blk.phase.code
  widx := BitVec.ofNat _ s.blk.widx
  ridx := BitVec.ofNat _ s.blk.ridx
  cap := BitVec.ofNat _ s.blk.cap
  empty := s.emptyOut
  full := s.fullOut

end Sys2Proof.Machine
end

