-- ==== Sys2Proof/Machine/Lifecycle.lean ====
section
/-!
DEFINITION. The meanings of CONSTRUCT (`41_construct.md`) and TEARDOWN (`43_teardown.md`), the two
operations that change `PHASE`.
-/

namespace Sys2Proof.Machine

/-- CONSTRUCT (R69), with the tests in the order of R73: the phase (R70), `size == 0` (R71),
`size > DEPTH` (R72). -/
def execConstruct (size : Nat) (s : State) : Host.Outcome State Fault Refusal :=
  if s.blk.phase ≠ .uninit then .next (s.fail .badState)
  else if size = 0 then .next (s.fail .badSize)
  else if s.cfg.depth < size then .next (s.fail .allocFail)
  else .next ((s.openBuffer size).respond .ok none)

/-- TEARDOWN (R90): in the ACTIVE phase the buffer is released; elsewhere a no-op (R91, R92). The
status is OK in every phase (R93). -/
def execTeardown (s : State) : Host.Outcome State Fault Refusal :=
  if s.blk.phase = .active then .next (s.closeBuffer.respond .ok none)
  else .next (s.respond .ok none)

end Sys2Proof.Machine
end

