-- ==== Sys2Proof/Machine/PushPop.lean ====
section
/-!
DEFINITION. The meanings of PUSH and POP (`42_push_pop.md`), the two hot-path operations.
-/

namespace Sys2Proof.Machine

/-- PUSH (R76): the phase test before any arithmetic (R78), then the full test on the current
indices (R77), then the slot write at the old `WIDX` and the new `WIDX`. -/
def execPush (element : Elem) (s : State) : Host.Outcome State Fault Refusal :=
  if s.blk.phase ≠ .active then .next (s.fail .badState)
  else
    orFault (advancedWidx s) fun nxt =>
      if nxt = s.blk.ridx then .next (s.fail .overflow)
      else
        orFault (s.memWrite (pushSlot s) element) fun t =>
          .next ((t.setWidx nxt).respond .ok none)

/-- POP (R79): the phase test (R81), then the empty test (R80), then the slot read at the old `RIDX`
and the new `RIDX`. STORE is not written (R82). -/
def execPop (s : State) : Host.Outcome State Fault Refusal :=
  if s.blk.phase ≠ .active then .next (s.fail .badState)
  else if isEmpty s.blk.widx s.blk.ridx then .next (s.fail .underflow)
  else
    orFault (s.memRead (popSlot s)) fun e =>
      orFault (advancedRidx s) fun nxt =>
        .next ((s.setRidx nxt).respond .ok (some e))

end Sys2Proof.Machine
end

