-- ==== Sys2Proof/Machine/Dispatch.lean ====
section
/-! DEFINITION. One arm for each operation: its meaning. -/

namespace Sys2Proof.Machine

def exec (i : Instr) (s : State) : Host.Outcome State Fault Refusal :=
  match i with
  | .construct size => Sys2Proof.Machine.execConstruct size s
  | .push element => Sys2Proof.Machine.execPush element s
  | .pop => Sys2Proof.Machine.execPop s
  | .teardown => Sys2Proof.Machine.execTeardown s

end Sys2Proof.Machine
end

