-- ==== Sys2Proof/WellFormed.lean ====
section
/-!
DEFINITION. Which operations can be written down for a configuration: the operand fits the bits its
field has.
-/

namespace Sys2Proof

/-- The operand of CONSTRUCT is one of `0 .. 2^IDX_W - 1` (R49). The element of a PUSH fits by its
type (R50), and POP and TEARDOWN have no operand (R51). -/
def Instr.wellFormed (cfg : Config) : Instr → Bool
  | .construct size => decide (size < 2 ^ cfg.idxW)
  | .push _ => true
  | .pop => true
  | .teardown => true

end Sys2Proof
end

