-- ==== Sys2Proof/Decode.lean ====
section
/-!
DEFINITION. The request word (`30_encoding.md` R47 to R51): the decoder, total on all `2^REQ_W`
words with nothing to reject (R51, R55), and after it the encoder. No other file reads a bit of a
request.
-/

namespace Sys2Proof

/-- `op = req[1:0]` (R48). -/
def opField (cfg : Config) (req : BitVec cfg.reqW) : OpCode := req.extractLsb' 0 2

/-- `arg = req[ARG_W+1:2]` (R48). -/
def argField (cfg : Config) (req : BitVec cfg.reqW) : BitVec cfg.argW :=
  req.extractLsb' 2 cfg.argW

/-- `size = arg[IDX_W-1:0]`, unsigned; the bits above are ignored (R49). -/
def sizeField (cfg : Config) (arg : BitVec cfg.argW) : Nat := (arg.extractLsb' 0 cfg.idxW).toNat

/-- `element = arg[ELEM_W-1:0]`; the bits above are ignored (R50). -/
def elementField (cfg : Config) (arg : BitVec cfg.argW) : Elem := arg.extractLsb' 0 elemW

/-- The operation a request word stands for: `op` selects it, and only the bits it uses are read
(R47, R51). Every word has a meaning (R55). -/
def decode (cfg : Config) (req : BitVec cfg.reqW) : Instr :=
  if opField cfg req = 0b00#2 then .construct (sizeField cfg (argField cfg req))
  else if opField cfg req = 0b01#2 then .push (elementField cfg (argField cfg req))
  else if opField cfg req = 0b10#2 then .pop
  else .teardown

/-- The request port: it has `REQ_W` wires, so of a number only its low `REQ_W` bits are presented
(R48; DESIGN CHOICE, safe: log 3). -/
def requestWires (cfg : Config) (w : Nat) : BitVec cfg.reqW := BitVec.ofNat cfg.reqW w

/-- The operation selected by the request number `w` (R48). -/
def decodeRequest (cfg : Config) (w : Nat) : Instr := decode cfg (requestWires cfg w)

/-- The instruction the decoder reads, in the reference configuration of the reset state (log 1),
from a word whose bits above `nbits` are zero. -/
def decodeTableWord (nbits w : Nat) : Option Instr :=
  some (decodeRequest Machine.referenceConfig (w % 2 ^ nbits))

/-- The `op` code of an operation (R47). -/
def Instr.opCode : Instr → OpCode
  | .construct _ => 0b00#2
  | .push _ => 0b01#2
  | .pop => 0b10#2
  | .teardown => 0b11#2

/-- The argument field of an operation's canonical word: the operand in the low bits, every ignored
bit 0 (R49, R50, R51). -/
def Instr.argument (cfg : Config) : Instr → BitVec cfg.argW
  | .construct size => BitVec.ofNat cfg.argW size
  | .push element => element.setWidth cfg.argW
  | .pop => 0#cfg.argW
  | .teardown => 0#cfg.argW

/-- The canonical request word `{arg, op}` of an operation (R48). -/
def encode (cfg : Config) (i : Instr) : BitVec cfg.reqW := i.argument cfg ++ i.opCode

/-- The canonical request word as the number a requester presents (R48). -/
def encodeRequest (cfg : Config) (i : Instr) : Nat := (encode cfg i).toNat

end Sys2Proof
end

