-- ==== Sys2Proof/Machine/Port.lean ====
section
/-!
DEFINITION. The input port: what the requester presents in a step (`30_encoding.md` R48, R58,
`70_reset_and_hazards.md` R116), and the two steps that run no operation.
-/

namespace Sys2Proof.Machine

/-- A step without a request (R58): nothing changes and no response is produced. -/
def State.idleStep (s : State) : State := s.showResponse none

/-- A step with `rst` asserted (R116): the block takes its reset values and no response is
produced; the response outputs are unspecified until the next step (R31). -/
def State.resetStep (s : State) : State := s.resetBlock.showResponse none

/-- What the port delivers: a step already complete, or an operation to run. -/
inductive Delivered where
  | settled (t : State)
  | run (i : Instr) (t : State)
deriving DecidableEq, Repr

/-- Takes the next input. With no input left, `req_valid` is 0 (R58; DESIGN CHOICE,
safe over all states: log 3). -/
def poll (s : State) : Delivered :=
  match s.inbox with
  | [] => .settled s.idleStep
  | .idle _ :: rest => .settled (State.idleStep { s with inbox := rest })
  | .reset :: rest => .settled (State.resetStep { s with inbox := rest })
  | .request w :: rest => .run (decodeRequest s.cfg w) { s with inbox := rest }

/-- Puts a request word of `nbits` bits in front of the inputs still to come. -/
def State.present (s : State) (nbits w : Nat) : State :=
  { s with inbox := .request (w % 2 ^ nbits) :: s.inbox }

end Sys2Proof.Machine
end

