-- ==== Sys2Proof/Machine/Step.lean ====
section
/-! DEFINITION. One step of the block: one input taken, one operation run or none (R8). -/

namespace Sys2Proof.Machine

/-- One atomic step (R8, R41): the port's next input is taken and, if it is a request, its
operation is run. -/
def step (s : State) : Host.Outcome State Fault Refusal :=
  match poll s with
  | .settled t => .next t
  | .run i t => exec i t

/-- The state whose very next step runs the word `w`: the word is the next request of the
requester (log 3). Nothing else changes. -/
def State.withFetchWord (s : State) (nbits w : Nat) : State := s.present nbits w

end Sys2Proof.Machine
end

