-- ==== Sys2Proof/Machine/Response.lean ====
section
/-!
DEFINITION. The response word (`30_encoding.md` R52, R53, R54) and what the response wires carry
where the spec leaves them unspecified.
-/

namespace Sys2Proof.Machine

/-- The status numbers (R52). -/
def Status.code : Status → StatusCode
  | .ok => 0b000#3
  | .overflow => 0b001#3
  | .underflow => 0b010#3
  | .allocFail => 0b011#3
  | .badSize => 0b100#3
  | .badState => 0b101#3

/-- `resp = {dout, status}` (R54). -/
def responseWord (dout : Elem) (status : StatusCode) : BitVec respW := dout ++ status

/-- The status of the last step's response, if it produced one (R52). -/
def State.status (s : State) : Option Status := s.resp.map Response.status

/-- The element of the last step's response, if it carries one (R53). -/
def State.element (s : State) : Option Elem := s.resp.bind Response.dout

/-- The response wires. A bit that the last step defines has its value; every other bit is free:
`dout` when no element is produced (R53), the whole word when no response is (R31, R58; log 4). -/
def State.responseWires (s : State) : BitVec respW :=
  match s.resp with
  | none => Config.freeResponseWires s.draws
  | some ⟨status, some e⟩ => responseWord e status.code
  | some ⟨status, none⟩ =>
    responseWord ((Config.freeResponseWires s.draws).extractLsb' 3 elemW) status.code

end Sys2Proof.Machine
end

