-- ==== Sys2Proof/Safety.lean ====
section
/-!
DEFINITION. What the spec promises of every reachable state (`10_state.md` section 5), the abstract
queue of `42_push_pop.md` R88, the life-cycle table of `10_state.md` R21, and what the requester
sees of a run (`00_scope.md` R12).
-/

namespace Sys2Proof.Machine

/-- `count` of a block's state (R28, R65). Used in the ACTIVE phase only. -/
def Block.count (b : Block) : Nat := occupancy b.widx b.ridx b.cap

/-- The slot of the `k`-th held element, `(RIDX + k) mod CAP` (R28, R88). -/
def Block.heldSlot (b : Block) (k : Nat) : Nat := (b.ridx + k) % b.cap

/-- The abstract contents `Q`, oldest first (R88): what the held slots hold. -/
def Block.contents (b : Block) : List (Option Elem) :=
  (List.range b.count).map fun k => b.store.read (b.heldSlot k)

/-- The block holds exactly the elements `q`, oldest first: every held slot is written (R28) and the
abstract contents are `q` (R88). -/
abbrev Block.Holds (b : Block) (q : List Elem) : Prop := b.contents = q.map some

/-- R25: in the ACTIVE phase both indices are below `CAP`. -/
abbrev Block.IndicesInRange (b : Block) : Prop :=
  b.phase = .active → b.widx < b.cap ∧ b.ridx < b.cap

/-- R26: in the ACTIVE phase `1 <= CAP <= DEPTH`. -/
abbrev State.CapInRange (s : State) : Prop :=
  s.blk.phase = .active → 1 ≤ s.blk.cap ∧ s.blk.cap ≤ s.cfg.depth

/-- R27: outside the ACTIVE phase the registers are 0 and every slot is unwritten. -/
abbrev Block.ClearedWhenInactive (b : Block) : Prop :=
  b.phase ≠ .active → b.widx = 0 ∧ b.ridx = 0 ∧ b.cap = 0 ∧ b.store = Memory.unwritten

/-- R28: in the ACTIVE phase every held slot is written. -/
abbrev Block.HeldSlotsWritten (b : Block) : Prop :=
  b.phase = .active → ∀ k, k < b.count → (b.store.read (b.heldSlot k)).isSome = true

/-- R38: in the ACTIVE phase no slot at or above `CAP` is written. -/
abbrev Block.WrittenSlotsBelowCap (b : Block) : Prop :=
  b.phase = .active → ∀ c ∈ b.store, c.1 < b.cap

/-- The invariant of every reachable state: the configuration is legal (R5, R6), STORE is canonical
(log 7), and R25, R26, R27, R28 and R38 hold. -/
structure State.Inv (s : State) : Prop where
  legal : s.cfg.Legal
  canonical : s.blk.store.Wf
  indices : s.blk.IndicesInRange
  capacity : s.CapInRange
  cleared : s.blk.ClearedWhenInactive
  held : s.blk.HeldSlotsWritten
  below : s.blk.WrittenSlotsBelowCap

/-- The operation completes: it answers the next state `t` with this status (R52), and neither the
configuration nor the inputs to come change. -/
def Answers (i : Instr) (s : State) (st : Status) (t : State) : Prop :=
  exec i s = .next t ∧ t.status = some st ∧ t.cfg = s.cfg ∧ t.inbox = s.inbox

/-- `respond(status, ANY)` and nothing else: the operation completes with this status, the block's
five items (R13), the configuration and the inputs to come are unchanged. -/
def AnswersUnchanged (i : Instr) (s : State) (st : Status) : Prop :=
  ∃ t, Answers i s st t ∧ t.blk = s.blk

/-- The rows of the life-cycle table of R21: the phase after the operation and its status. In the
ACTIVE phase `full` and `empty` are the comparators of R62 and R63. -/
def lifecycleRow (cfg : Config) (b : Block) : Instr → Phase × Status
  | .construct size =>
    match b.phase with
    | .uninit =>
      if 1 ≤ size ∧ size ≤ cfg.depth then (.active, .ok)
      else if size = 0 then (.uninit, .badSize)
      else (.uninit, .allocFail)
    | .active => (.active, .badState)
    | .torn => (.torn, .badState)
  | .push _ =>
    match b.phase with
    | .uninit => (.uninit, .badState)
    | .active => (.active, if isFull b.widx b.ridx b.cap then .overflow else .ok)
    | .torn => (.torn, .badState)
  | .pop =>
    match b.phase with
    | .uninit => (.uninit, .badState)
    | .active => (.active, if isEmpty b.widx b.ridx then .underflow else .ok)
    | .torn => (.torn, .badState)
  | .teardown =>
    match b.phase with
    | .uninit => (.uninit, .ok)
    | .active => (.torn, .ok)
    | .torn => (.torn, .ok)

/-- A run's start: reset in a configuration, with the inputs the requester will present (R12). -/
def startOf (cfg : Config) (inputs : List Input) : State :=
  { State.resetOf cfg with inbox := inputs }

/-- The input that presents an operation's canonical word (R48). -/
def requestOf (cfg : Config) (i : Instr) : Input := .request (encodeRequest cfg i)

/-- The responses of the first `n` steps of a run, in order (R12). A step that produces no response
adds nothing; a step that stops ends the list. -/
def responses : Nat → State → List Response
  | 0, _ => []
  | n + 1, s =>
    match step s with
    | .next t => t.resp.toList ++ responses n t
    | .fault _ => []
    | .refused _ => []

/-- How many of the first `n` steps release the storage: a step from ACTIVE to TORN (R30, R95). -/
def releases : Nat → State → Nat
  | 0, _ => 0
  | n + 1, s =>
    match step s with
    | .next t =>
      (if s.blk.phase = .active ∧ t.blk.phase = .torn then 1 else 0) + releases n t
    | .fault _ => 0
    | .refused _ => 0

/-- Two states the requester cannot tell apart (R32): the same configuration, inputs, phase, index
registers and held elements. The slots that hold no element may differ. -/
structure SameToRequester (s t : State) : Prop where
  cfg : s.cfg = t.cfg
  inbox : s.inbox = t.inbox
  phase : s.blk.phase = t.blk.phase
  widx : s.blk.widx = t.blk.widx
  ridx : s.blk.ridx = t.blk.ridx
  cap : s.blk.cap = t.blk.cap
  contents : s.blk.phase = .active → s.blk.contents = t.blk.contents

end Sys2Proof.Machine
end

