-- ==== Sys2Proof/Certificates/Slice0/Obligations.lean ====
section
/-!
DEFINITION. The statements for the provers. Every statement is over all configurations, all states
and all inputs that meet its hypotheses; the numbers of the reference configuration (log 1) are used
by `ResetStateMeetsInvariant` alone, and no statement rests on a free value (log 4).
-/

open Sys2Proof Sys2Proof.Machine

/-! ### Request words -/

/-- Words the spec writes out (`30_encoding.md` section 8, `95_test_vectors.md` section 2.2) decode
to the operations it gives for them. -/
def Obligations.RequestWordsDecodeAsWritten : Prop :=
  decodeRequest ⟨8, 255⟩ 0x014 = .construct 5 ∧
  decodeRequest ⟨8, 255⟩ 0x3F4 = .construct 253 ∧
  decodeRequest ⟨3, 7⟩ 0x3F4 = .construct 5 ∧
  decodeRequest ⟨8, 255⟩ 0x029 = .push 10#8 ∧
  decodeRequest ⟨3, 7⟩ 0x3FD = .push 255#8 ∧
  decodeRequest ⟨8, 255⟩ 0x002 = .pop ∧
  decodeRequest ⟨8, 255⟩ 0x156 = .pop ∧
  decodeRequest ⟨8, 255⟩ 0x003 = .teardown ∧
  decodeRequest ⟨8, 255⟩ 0x3FF = .teardown

/-- Decoding the canonical word of a well-formed operation gives it back, for every operand its
field can hold and every configuration (R47 to R51). -/
def Obligations.DecodeInvertsEncode : Prop :=
  ∀ (cfg : Config) (i : Instr), i.wellFormed cfg = true → decode cfg (encode cfg i) = i

/-- As a number the canonical word is `arg * 4 + op`, with the op codes of R47 (R48). -/
def Obligations.EncodedWordIsArgTimesFourPlusOp : Prop :=
  ∀ cfg : Config,
    (∀ size, size < 2 ^ cfg.idxW → encodeRequest cfg (.construct size) = size * 4 + 0) ∧
    (∀ e : Elem, encodeRequest cfg (.push e) = e.toNat * 4 + 1) ∧
    encodeRequest cfg .pop = 2 ∧
    encodeRequest cfg .teardown = 3

/-- The bits an operation ignores have no effect: two words with the same `op` whose used operand
bits agree take the same step from every state (R49, R50, R51). -/
def Obligations.IgnoredArgumentBitsHaveNoEffect : Prop :=
  ∀ (s : State) (rest : List Input) (w w' : Nat),
    w % 4 = w' % 4 →
    (w % 4 = 0 → w / 4 % 2 ^ s.cfg.idxW = w' / 4 % 2 ^ s.cfg.idxW) →
    (w % 4 = 1 → w / 4 % 2 ^ elemW = w' / 4 % 2 ^ elemW) →
    step { s with inbox := .request w :: rest } = step { s with inbox := .request w' :: rest }

/-! ### Index arithmetic -/

/-- `next` in its compare-and-wrap form, under the precondition of R59 (R60). -/
def Obligations.NextIsCompareAndWrap : Prop :=
  ∀ i c : Nat, i < c → nextIndex i c = .ok (if i + 1 = c then 0 else i + 1)

/-- The increment never overflows `IDX_W` bits: under the precondition of R59 the `IDX_W`-bit sum is
the mathematical sum, and `next` on natural numbers is the fixed-width compare-and-wrap of the
registers' bits (R61; log 2). -/
def Obligations.FixedWidthIncrementNeverOverflows : Prop :=
  ∀ w i c : Nat, i < c → c ≤ 2 ^ w - 1 →
    (BitVec.ofNat w i + BitVec.ofNat w 1).toNat = i + 1 ∧
    nextIndex i c =
      .ok (if BitVec.ofNat w i + BitVec.ofNat w 1 = BitVec.ofNat w c then 0#w
        else BitVec.ofNat w i + BitVec.ofNat w 1).toNat

/-- With `CAP = 1` the buffer is empty and full at once, so every PUSH answers OVERFLOW and every POP
UNDERFLOW; with `CAP >= 2` it is never both (R64). -/
def Obligations.CapacityOneIsEmptyAndFull : Prop :=
  (∀ s : State, s.blk.phase = .active → s.blk.cap = 1 → s.blk.widx < 1 → s.blk.ridx < 1 →
    isEmpty s.blk.widx s.blk.ridx = true ∧
    isFull s.blk.widx s.blk.ridx s.blk.cap = true ∧
    (∀ e, AnswersUnchanged (.push e) s .overflow) ∧
    AnswersUnchanged .pop s .underflow) ∧
  (∀ w r c : Nat, 2 ≤ c → w < c → r < c → ¬ (isEmpty w r = true ∧ isFull w r c = true))

/-- `is_empty` iff `count = 0` and `is_full` iff `count = c - 1`; `count` is at most `c - 1`
(R65, R68). -/
def Obligations.EmptyAndFullByOccupancy : Prop :=
  ∀ w r c : Nat, w < c → r < c →
    (isEmpty w r = true ↔ occupancy w r c = 0) ∧
    (isFull w r c = true ↔ occupancy w r c = c - 1) ∧
    occupancy w r c ≤ c - 1

/-- A successful PUSH raises `count` by 1, a successful POP lowers it by 1, a successful CONSTRUCT
makes it 0, and an operation that fails leaves it (R65). -/
def Obligations.OccupancyChangesByOne : Prop :=
  ∀ (s t : State) (i : Instr) (st : Status), s.Inv → Answers i s st t →
    (∀ e, i = .push e → st = .ok → t.blk.count = s.blk.count + 1) ∧
    (i = .pop → st = .ok → t.blk.count + 1 = s.blk.count) ∧
    (∀ size, i = .construct size → st = .ok → t.blk.count = 0) ∧
    (st ≠ .ok → t.blk.count = s.blk.count)

/-! ### The operations -/

/-- CONSTRUCT in every phase and for every size: the three failures in the order of R73, each with
the whole block unchanged, and the success (R69 to R73). -/
def Obligations.ConstructFollowsItsRule : Prop :=
  ∀ (size : Nat) (s : State),
    (s.blk.phase ≠ .uninit → AnswersUnchanged (.construct size) s .badState) ∧
    (s.blk.phase = .uninit → size = 0 → AnswersUnchanged (.construct size) s .badSize) ∧
    (s.blk.phase = .uninit → size ≠ 0 → s.cfg.depth < size →
      AnswersUnchanged (.construct size) s .allocFail) ∧
    (s.blk.phase = .uninit → 1 ≤ size → size ≤ s.cfg.depth →
      ∃ t, Answers (.construct size) s .ok t ∧
        t.blk.phase = .active ∧ t.blk.cap = size ∧ t.blk.widx = 0 ∧ t.blk.ridx = 0 ∧
        (∀ a, t.blk.store.read a = none) ∧
        t.emptyOut = true ∧ t.fullOut = decide (size = 1))

/-- After a CONSTRUCT that failed nothing is written; if the phase was UNINIT, PUSH and POP answer
BAD_STATE and a CONSTRUCT with a good size succeeds (R74). -/
def Obligations.FailedConstructCanBeRetried : Prop :=
  ∀ (size : Nat) (s t : State) (st : Status), Answers (.construct size) s st t → st ≠ .ok →
    t.blk = s.blk ∧
    (s.blk.phase = .uninit →
      (∀ e, AnswersUnchanged (.push e) t .badState) ∧
      AnswersUnchanged .pop t .badState ∧
      ∀ good, 1 ≤ good → good ≤ s.cfg.depth →
        ∃ u, Answers (.construct good) t .ok u ∧ u.blk.phase = .active ∧ u.blk.cap = good)

/-- PUSH in every phase and at every occupancy: BAD_STATE outside ACTIVE, OVERFLOW when
`(WIDX + 1) mod CAP = RIDX`, both with the whole block unchanged; otherwise the element stands at the
old `WIDX`, every other slot and every other register is as it was, and `WIDX` has advanced
(R76, R77, R78). -/
def Obligations.PushFollowsItsRule : Prop :=
  ∀ (e : Elem) (s : State),
    (s.blk.phase ≠ .active → AnswersUnchanged (.push e) s .badState) ∧
    (s.blk.phase = .active → s.blk.widx < s.blk.cap → s.blk.ridx < s.blk.cap →
      s.blk.cap ≤ s.cfg.depth →
      ((s.blk.widx + 1) % s.blk.cap = s.blk.ridx → AnswersUnchanged (.push e) s .overflow) ∧
      ((s.blk.widx + 1) % s.blk.cap ≠ s.blk.ridx →
        ∃ t, Answers (.push e) s .ok t ∧
          t.blk.store.read (pushSlot s) = some e ∧
          (∀ a, a ≠ pushSlot s → t.blk.store.read a = s.blk.store.read a) ∧
          t.blk.widx = (s.blk.widx + 1) % s.blk.cap ∧
          t.blk.ridx = s.blk.ridx ∧ t.blk.cap = s.blk.cap ∧ t.blk.phase = .active ∧
          t.emptyOut = false ∧ t.fullOut = decide (t.blk.count = s.blk.cap - 1)))

/-- POP in every phase and at every occupancy: BAD_STATE outside ACTIVE, UNDERFLOW when
`WIDX = RIDX`, both with the whole block unchanged; otherwise the element at the old `RIDX` is
returned, STORE and every other register is as it was, and `RIDX` has advanced (R79 to R82). -/
def Obligations.PopFollowsItsRule : Prop :=
  ∀ s : State,
    (s.blk.phase ≠ .active → AnswersUnchanged .pop s .badState) ∧
    (s.blk.phase = .active → s.blk.widx = s.blk.ridx → AnswersUnchanged .pop s .underflow) ∧
    (∀ e, s.blk.phase = .active → s.blk.widx ≠ s.blk.ridx → s.blk.widx < s.blk.cap →
      s.blk.ridx < s.blk.cap → s.blk.cap ≤ s.cfg.depth →
      s.blk.store.read (popSlot s) = some e →
      ∃ t, Answers .pop s .ok t ∧ t.element = some e ∧
        t.blk.ridx = (s.blk.ridx + 1) % s.blk.cap ∧
        t.blk.widx = s.blk.widx ∧ t.blk.cap = s.blk.cap ∧ t.blk.phase = .active ∧
        t.blk.store = s.blk.store ∧
        t.fullOut = false ∧
        t.emptyOut = decide ((s.blk.ridx + 1) % s.blk.cap = s.blk.widx))

/-- TEARDOWN in every phase: from ACTIVE everything is cleared and the phase becomes TORN, elsewhere
nothing changes; the status is OK (R90 to R93). -/
def Obligations.TeardownFollowsItsRule : Prop :=
  ∀ s : State,
    (s.blk.phase = .active →
      ∃ t, Answers .teardown s .ok t ∧
        t.blk.phase = .torn ∧ t.blk.widx = 0 ∧ t.blk.ridx = 0 ∧ t.blk.cap = 0 ∧
        (∀ a, t.blk.store.read a = none) ∧ t.emptyOut = true ∧ t.fullOut = false) ∧
    (s.blk.phase ≠ .active → AnswersUnchanged .teardown s .ok)

/-- TEARDOWN twice leaves what one TEARDOWN leaves, and both answer OK, from every state (R94). -/
def Obligations.TeardownTwiceEqualsOnce : Prop :=
  ∀ s : State, ∃ t u, Answers .teardown s .ok t ∧ Answers .teardown t .ok u ∧ u.blk = t.blk

/-- After a TEARDOWN from ACTIVE, no sequence of inputs without `rst` changes the block, and in every
state so reached CONSTRUCT, PUSH and POP answer BAD_STATE and TEARDOWN answers OK (R95). -/
def Obligations.TornStaysUntilReset : Prop :=
  ∀ (n : Nat) (s t : State), s.blk.phase = .active → Answers .teardown s .ok t →
    (∀ e ∈ t.inbox.take n, e ≠ .reset) →
    ∃ u, Sys2Proof.core.run n t = .next u ∧ u.blk = t.blk ∧ u.blk.phase = .torn ∧
      (∀ size, AnswersUnchanged (.construct size) u .badState) ∧
      (∀ e, AnswersUnchanged (.push e) u .badState) ∧
      AnswersUnchanged .pop u .badState ∧
      AnswersUnchanged .teardown u .ok

/-- Along any run without `rst`, from any state, at most one step releases the storage
(R30, R95, R124). -/
def Obligations.StorageReleasedAtMostOnce : Prop :=
  ∀ (n : Nat) (s : State), (∀ e ∈ s.inbox.take n, e ≠ .reset) → releases n s ≤ 1

/-! ### The step and the port -/

/-- When the next input is a request, the step runs exactly the operation its word decodes to, on the
state with that input taken; the operation is well-formed (R8, R48). -/
def Obligations.StepRunsDecodedRequest : Prop :=
  ∀ (s : State) (w : Nat) (rest : List Input), s.inbox = .request w :: rest →
    (decodeRequest s.cfg w).wellFormed s.cfg = true ∧
    step s = exec (decodeRequest s.cfg w) { s with inbox := rest }

/-- With `req_valid = 0` the word is ignored, the block does not change and there is no response; a
valid request is answered in its own step, in every state of the invariant (R58). -/
def Obligations.StepWithoutRequestChangesNothing : Prop :=
  (∀ (s : State) (w : Nat) (rest : List Input), ∃ t,
    step { s with inbox := .idle w :: rest } = .next t ∧ t.blk = s.blk ∧ t.cfg = s.cfg ∧
      t.resp = none ∧ t.inbox = rest ∧
      ∀ w', step { s with inbox := .idle w' :: rest } = .next t) ∧
  (∀ (s : State) (w : Nat) (rest : List Input), s.Inv → ∃ t,
    step { s with inbox := .request w :: rest } = .next t ∧ t.resp.isSome = true ∧
      t.inbox = rest)

/-- `rst` gives the values of R31, from any state; so does the machine's state after reset in every
configuration. -/
def Obligations.ResetInputGivesResetState : Prop :=
  (∀ (s : State) (rest : List Input), ∃ t,
    step { s with inbox := .reset :: rest } = .next t ∧
      t.blk.phase = .uninit ∧ t.blk.widx = 0 ∧ t.blk.ridx = 0 ∧ t.blk.cap = 0 ∧
      (∀ a, t.blk.store.read a = none) ∧ t.emptyOut = true ∧ t.fullOut = false ∧
      t.cfg = s.cfg ∧ t.inbox = rest) ∧
  (∀ (cfg : Config),
    (State.resetOf cfg).blk.phase = .uninit ∧ (State.resetOf cfg).blk.widx = 0 ∧
      (State.resetOf cfg).blk.ridx = 0 ∧ (State.resetOf cfg).blk.cap = 0 ∧
      (∀ a, (State.resetOf cfg).blk.store.read a = none) ∧
      (State.resetOf cfg).emptyOut = true ∧ (State.resetOf cfg).fullOut = false)

/-- A step never changes the configuration and takes exactly the next input; with no input left it is
an idle step. MODEL's choice: that the configuration and the inputs stand in State, and that an empty
list of inputs means `req_valid = 0`, is log 1 and log 3. -/
def Obligations.StepTakesOneInput : Prop :=
  (∀ s t : State, step s = .next t → t.cfg = s.cfg ∧ t.inbox = s.inbox.tail) ∧
  (∀ s : State, s.inbox = [] → ∃ t, step s = .next t ∧ t.blk = s.blk ∧ t.resp = none)

/-! ### Invariants and whole-machine rules -/

/-- The reset state meets the invariant in every legal configuration. MODEL's choice: the
configuration of `State.reset` is log 1, and the second clause says that it is a legal one. -/
def Obligations.ResetStateMeetsInvariant : Prop :=
  (∀ cfg : Config, cfg.Legal → (State.resetOf cfg).Inv) ∧
  State.reset = State.resetOf referenceConfig ∧ State.reset.Inv

/-- Every step from every state that meets the invariant gives a state that meets it: legal
configuration, canonical STORE, R25, R26, R27, R28 and R38. -/
def Obligations.EveryStepKeepsInvariant : Prop :=
  ∀ s t : State, s.Inv → step s = .next t → t.Inv

/-- R25 holds at reset and every step keeps it, on its own. -/
def Obligations.IndicesStayInRange : Prop :=
  (∀ cfg : Config, (State.resetOf cfg).blk.IndicesInRange) ∧
  ∀ s t : State, s.blk.IndicesInRange → step s = .next t → t.blk.IndicesInRange

/-- R26 holds at reset and every step keeps it, and `CAP` does not change while the phase stays
ACTIVE. -/
def Obligations.CapacityStaysFixedWhileActive : Prop :=
  (∀ cfg : Config, (State.resetOf cfg).CapInRange) ∧
  (∀ s t : State, s.CapInRange → step s = .next t → t.CapInRange) ∧
  ∀ s t : State, step s = .next t → s.blk.phase = .active → t.blk.phase = .active →
    t.blk.cap = s.blk.cap

/-- R27 holds at reset and every step keeps it, on its own. -/
def Obligations.InactiveStateStaysCleared : Prop :=
  (∀ cfg : Config, (State.resetOf cfg).blk.ClearedWhenInactive) ∧
  ∀ s t : State, s.blk.ClearedWhenInactive → step s = .next t → t.blk.ClearedWhenInactive

/-- On every run from reset, in every legal configuration and for every list of inputs: in the ACTIVE
phase `count <= CAP - 1`, every held slot is written, and no next step faults with `UnwrittenSlot`
(R28). -/
def Obligations.HeldSlotsAreWrittenOnEveryRun : Prop :=
  ∀ (cfg : Config) (inputs : List Input) (n : Nat) (t : State), cfg.Legal →
    Sys2Proof.core.run n (startOf cfg inputs) = .next t →
    (t.blk.phase = .active →
      t.blk.count ≤ t.blk.cap - 1 ∧
      ∀ k, k < t.blk.count → ∃ e, t.blk.store.read ((t.blk.ridx + k) % t.blk.cap) = some e) ∧
    ∀ i, step t ≠ .fault (.unwrittenSlot i)

/-- No run from reset reaches a model fault: in every legal configuration, for every list of inputs
and every number of steps, the run has a next state (R39, R66). -/
def Obligations.NoRunReachesModelFault : Prop :=
  ∀ (cfg : Config) (inputs : List Input) (n : Nat), cfg.Legal →
    ∃ t, Sys2Proof.core.run n (startOf cfg inputs) = .next t

/-- Every row of the life-cycle table of R21, with the order of tests of R103: in every state of the
invariant each operation answers the status and leaves the phase its row gives; `rst` leaves UNINIT and has
no response; without a request the phase stays. -/
def Obligations.LifecycleTableIsFollowed : Prop :=
  ∀ s : State, s.Inv →
    (∀ i, ∃ t, Answers i s (lifecycleRow s.cfg s.blk i).2 t ∧
      t.blk.phase = (lifecycleRow s.cfg s.blk i).1) ∧
    (∀ rest, ∃ t, step { s with inbox := .reset :: rest } = .next t ∧ t.blk.phase = .uninit ∧
      t.resp = none) ∧
    (∀ w rest, ∃ t, step { s with inbox := .idle w :: rest } = .next t ∧
      t.blk.phase = s.blk.phase)

/-- In every state of the invariant every operation completes with a response, and either answers OK
or changes nothing (R86, R104). -/
def Obligations.EveryRequestIsAnswered : Prop :=
  ∀ (s : State) (i : Instr), s.Inv →
    ∃ t, exec i s = .next t ∧ t.resp.isSome = true ∧ (t.status = some .ok ∨ t.blk = s.blk)

/-- A response other than OK means that no register and no slot was written, from every state
(R105). -/
def Obligations.FailuresChangeNothing : Prop :=
  ∀ (i : Instr) (s t : State) (st : Status), exec i s = .next t → t.status = some st → st ≠ .ok →
    t.blk = s.blk

/-! ### The queue -/

/-- The refinement of R88: the block is a first-in first-out queue of at most `CAP - 1` elements.
`Holds q` says that the abstract contents are exactly `q`. -/
def Obligations.BlockRefinesBoundedQueue : Prop :=
  ∀ s : State, s.Inv →
    (∀ size t, Answers (.construct size) s .ok t → t.blk.Holds []) ∧
    (s.blk.phase = .active → ∃ q, s.blk.Holds q) ∧
    ∀ q, s.blk.phase = .active → s.blk.Holds q →
      q.length = s.blk.count ∧
      (∀ e, q.length < s.blk.cap - 1 →
        ∃ t, Answers (.push e) s .ok t ∧ t.blk.Holds (q ++ [e]) ∧
          t.blk.phase = .active ∧ t.blk.cap = s.blk.cap) ∧
      (∀ e, s.blk.cap - 1 ≤ q.length → AnswersUnchanged (.push e) s .overflow) ∧
      (q = [] → AnswersUnchanged .pop s .underflow) ∧
      (∀ e q', q = e :: q' →
        ∃ t, Answers .pop s .ok t ∧ t.element = some e ∧ t.blk.Holds q' ∧
          t.blk.phase = .active ∧ t.blk.cap = s.blk.cap)

/-- The first-in first-out law, from reset and through the request words: after `Construct(c)`, `n`
pushes of any elements with `n <= c - 1` and `n` pops all answer OK, and the pops return the elements
in the order pushed (R83). -/
def Obligations.FifoLaw : Prop :=
  ∀ (cfg : Config) (c : Nat) (es : List Elem), cfg.Legal → 1 ≤ c → c ≤ cfg.depth →
    es.length ≤ c - 1 →
    let program := [Instr.construct c] ++ es.map Instr.push ++ List.replicate es.length Instr.pop
    let rs := responses program.length (startOf cfg (program.map (requestOf cfg)))
    rs.map Response.status = List.replicate program.length .ok ∧
    (rs.drop (1 + es.length)).map Response.dout = es.map some

/-- After `Construct(c)` the first `c - 1` pushes answer OK and the `c`-th answers OVERFLOW, from
reset and through the request words (R85). -/
def Obligations.FillThenOverflow : Prop :=
  ∀ (cfg : Config) (c : Nat) (es : List Elem), cfg.Legal → 1 ≤ c → c ≤ cfg.depth →
    es.length = c →
    (responses (1 + c)
      (startOf cfg (([Instr.construct c] ++ es.map Instr.push).map (requestOf cfg)))).map
        Response.status =
      .ok :: (List.replicate (c - 1) .ok ++ [.overflow])

/-- A POP on a freshly constructed buffer answers UNDERFLOW, from reset and through the request words
(R84). -/
def Obligations.FreshBufferUnderflows : Prop :=
  ∀ (cfg : Config) (c : Nat), cfg.Legal → 1 ≤ c → c ≤ cfg.depth →
    (responses 2
      (startOf cfg ([Instr.construct c, Instr.pop].map (requestOf cfg)))).map Response.status =
      [.ok, .underflow]

/-- Whenever the indices are equal, at whatever index and after whatever history, the buffer reports
empty and the next POP answers UNDERFLOW (R87). -/
def Obligations.EqualIndicesUnderflow : Prop :=
  ∀ s : State, s.blk.phase = .active → s.blk.widx = s.blk.ridx →
    s.emptyOut = true ∧ AnswersUnchanged .pop s .underflow

/-- What the slots outside the held elements contain cannot be observed: two states of the invariant
that agree on everything but those slots show the same EMPTY and FULL, and give the same responses to
every sequence of inputs (R32). `EveryStepKeepsStatesIndistinguishable` says it step by step, with the
outputs after each step. -/
def Obligations.StaleSlotsAreUnobservable : Prop :=
  ∀ (n : Nat) (s t : State), s.Inv → t.Inv → SameToRequester s t →
    responses n s = responses n t ∧ s.emptyOut = t.emptyOut ∧ s.fullOut = t.fullOut

/-- Every step keeps two states indistinguishable to the requester: from two states of the invariant
that agree on everything but the slots that hold no element, a step completes in both, with the same
response, in two states that agree so again and show the same EMPTY and FULL (R32). PHASE, WIDX, RIDX
and CAP, the other outputs of R24, are part of `SameToRequester`. -/
def Obligations.EveryStepKeepsStatesIndistinguishable : Prop :=
  ∀ s t : State, s.Inv → t.Inv → SameToRequester s t →
    ∃ s' t', step s = .next s' ∧ step t = .next t' ∧
      s'.resp = t'.resp ∧ SameToRequester s' t' ∧
      s'.emptyOut = t'.emptyOut ∧ s'.fullOut = t'.fullOut

/-- The order of a PUSH and a POP is observable (R123). When the buffer is full, POP then PUSH
succeeds twice and PUSH then POP gives OVERFLOW then OK; when it is empty, PUSH then POP succeeds
twice and POP then PUSH gives UNDERFLOW then OK. R123 writes `CAP >= 2` at its second half; its first
half needs it as well, since with `CAP = 1` no POP succeeds (R64). -/
def Obligations.PushAndPopOrderIsObservable : Prop :=
  ∀ (s : State) (e : Elem), s.Inv → s.blk.phase = .active → 2 ≤ s.blk.cap →
    (isFull s.blk.widx s.blk.ridx s.blk.cap = true →
      (∃ t u, Answers .pop s .ok t ∧ Answers (.push e) t .ok u) ∧
      (∃ t u, Answers (.push e) s .overflow t ∧ Answers .pop t .ok u)) ∧
    (isEmpty s.blk.widx s.blk.ridx = true →
      (∃ t u, Answers (.push e) s .ok t ∧ Answers .pop t .ok u ∧ u.element = some e) ∧
      (∃ t u, Answers .pop s .underflow t ∧ Answers (.push e) t .ok u))

/-! ### Outputs and responses -/

/-- EMPTY is 1 exactly when the indices are equal, in every phase; so it is 1 outside ACTIVE, where a
POP answers BAD_STATE all the same, and 1 after reset (R22). -/
def Obligations.EmptyOutputShowsEqualIndices : Prop :=
  (∀ s : State, s.emptyOut = true ↔ s.blk.widx = s.blk.ridx) ∧
  (∀ s : State, s.blk.ClearedWhenInactive → s.blk.phase ≠ .active →
    s.emptyOut = true ∧ AnswersUnchanged .pop s .badState) ∧
  ∀ cfg : Config, (State.resetOf cfg).emptyOut = true

/-- FULL is the comparator in the ACTIVE phase and 0 outside it; 0 after reset; with `CAP = 1` EMPTY
and FULL are both 1 (R23). -/
def Obligations.FullOutputShowsFullBuffer : Prop :=
  (∀ s : State, s.blk.phase = .active → s.blk.widx < s.blk.cap →
    (s.fullOut = true ↔ (s.blk.widx + 1) % s.blk.cap = s.blk.ridx)) ∧
  (∀ s : State, s.blk.phase ≠ .active → s.fullOut = false) ∧
  (∀ cfg : Config, (State.resetOf cfg).fullOut = false) ∧
  (∀ s : State, s.blk.phase = .active → s.blk.cap = 1 → s.blk.widx < 1 → s.blk.ridx < 1 →
    s.emptyOut = true ∧ s.fullOut = true)

/-- In every state of the invariant the outputs show the registers whole: no index and no capacity
needs a bit above `IDX_W - 1`, and the PHASE output is the code of R14 (R24; log 2). -/
def Obligations.ObservationOutputsShowRegisters : Prop :=
  ∀ s : State, s.Inv →
    s.outputs.widx.toNat = s.blk.widx ∧ s.outputs.ridx.toNat = s.blk.ridx ∧
    s.outputs.cap.toNat = s.blk.cap ∧
    (s.outputs.phase = 0b00#2 ↔ s.blk.phase = .uninit) ∧
    (s.outputs.phase = 0b01#2 ↔ s.blk.phase = .active) ∧
    (s.outputs.phase = 0b10#2 ↔ s.blk.phase = .torn) ∧
    s.outputs.empty = s.emptyOut ∧ s.outputs.full = s.fullOut

/-- The response wires: status in bits 2..0 for every response, and with an element the whole word is
`dout * 8 + status` (R54). -/
def Obligations.ResponseWordLayout : Prop :=
  (∀ (s : State) (r : Response), s.resp = some r →
    s.responseWires.extractLsb' 0 3 = r.status.code) ∧
  (∀ (s : State) (st : Status) (e : Elem), s.resp = some ⟨st, some e⟩ →
    s.responseWires.extractLsb' 3 8 = e ∧
    s.responseWires.toNat = e.toNat * 8 + st.code.toNat)

/-- The status numbers of R52, that 6 and 7 are never produced, and which operations produce each
status. -/
def Obligations.StatusCodesAndProducers : Prop :=
  (Status.ok.code = 0b000#3 ∧ Status.overflow.code = 0b001#3 ∧ Status.underflow.code = 0b010#3 ∧
    Status.allocFail.code = 0b011#3 ∧ Status.badSize.code = 0b100#3 ∧
    Status.badState.code = 0b101#3) ∧
  (∀ st : Status, st.code ≠ 0b110#3 ∧ st.code ≠ 0b111#3) ∧
  ∀ (i : Instr) (s t : State) (st : Status), exec i s = .next t → t.status = some st →
    (st = .overflow → ∃ e, i = .push e) ∧
    (st = .underflow → i = .pop) ∧
    (st = .allocFail → ∃ size, i = .construct size ∧ s.cfg.depth < size) ∧
    (st = .badSize → i = .construct 0) ∧
    (st = .badState → i ≠ .teardown)

/-- An element is returned when and only when the operation was a POP that answered OK. MODEL's
choice: in every other response `dout` is absent, the first of the two readings R53 offers
(log 4). -/
def Obligations.ElementOnlyFromSuccessfulPop : Prop :=
  ∀ (i : Instr) (s t : State), exec i s = .next t →
    (t.element.isSome = true ↔ i = .pop ∧ t.status = some .ok)

/-! ### Frames and memory -/

/-- The frame of the hot-path operations, from every state: PUSH writes no slot but the one at the
current `WIDX` and no register but `WIDX`; POP writes no slot and no register but `RIDX`
(R37, R76, R79, R82). -/
def Obligations.PushAndPopTouchOneCursor : Prop :=
  (∀ (e : Elem) (s t : State), exec (.push e) s = .next t →
    t.blk.phase = s.blk.phase ∧ t.blk.ridx = s.blk.ridx ∧ t.blk.cap = s.blk.cap ∧
    t.cfg = s.cfg ∧ t.inbox = s.inbox ∧
    ∀ a, a ≠ pushSlot s → t.blk.store.read a = s.blk.store.read a) ∧
  (∀ s t : State, exec .pop s = .next t →
    t.blk.phase = s.blk.phase ∧ t.blk.widx = s.blk.widx ∧ t.blk.cap = s.blk.cap ∧
    t.cfg = s.cfg ∧ t.inbox = s.inbox ∧
    ∀ a, t.blk.store.read a = s.blk.store.read a)

/-- The memory primitives of R34, where `CAP <= DEPTH`: under its requirement MemWrite sets the slot
and no other, and MemRead returns the value of a written slot; otherwise a model fault. MODEL's
choice: outside the ACTIVE phase the fault is `IndexOutOfRange` (log 5). -/
def Obligations.MemoryPrimitivesMeetTheirRule : Prop :=
  ∀ (s : State) (i : Nat) (v : Elem), s.blk.cap ≤ s.cfg.depth →
    (s.blk.phase = .active → i < s.blk.cap →
      (∃ t, s.memWrite i v = .ok t ∧ t.blk.store.read i = some v ∧
        (∀ a, a ≠ i → t.blk.store.read a = s.blk.store.read a) ∧
        t = { s with blk := { s.blk with store := t.blk.store } }) ∧
      (s.blk.store.read i = some v → s.memRead i = .ok v) ∧
      (s.blk.store.read i = none → s.memRead i = .error (.unwrittenSlot i))) ∧
    (s.blk.phase ≠ .active ∨ s.blk.cap ≤ i →
      s.memWrite i v = .error (.indexOutOfRange i) ∧
      s.memRead i = .error (.indexOutOfRange i))
end

