-- ==== Sys2Proof/Laws/Memory.lean ====
section
/-!
SUPPORT. The laws of the slot array: read after write, and the canonical form kept by every
operation (log 7).
-/

namespace Sys2Proof.Machine

@[simp] theorem Memory.read_unwritten (i : Nat) : Memory.unwritten.read i = none := rfl

/-- Reading a slot just written gives the value written. -/
@[simp] theorem Memory.read_write_same (m : Memory) (i : Nat) (v : Elem) :
    (m.write i v).read i = some v := by
  induction m with
  | nil => simp [Memory.write, Memory.read]
  | cons c rest ih =>
    unfold Memory.write
    split
    · simp [Memory.read]
    · split
      · simp [Memory.read]
      · next h => simp [Memory.read, Ne.symm h, ih]

/-- A write leaves every other slot alone. -/
theorem Memory.read_write_other (m : Memory) (i a : Nat) (v : Elem) (h : a ≠ i) :
    (m.write i v).read a = m.read a := by
  induction m with
  | nil => simp [Memory.write, Memory.read, Ne.symm h]
  | cons c rest ih =>
    unfold Memory.write
    split
    · simp [Memory.read, Ne.symm h]
    · split
      · next _ h' => subst h'; simp [Memory.read, Ne.symm h]
      · simp [Memory.read, ih]

/-- A cell of a written slot array is the cell written or a cell that was there. -/
theorem Memory.mem_write {m : Memory} {i : Nat} {v : Elem} {c : Host.Cell}
    (h : c ∈ m.write i v) : c = (i, v) ∨ c ∈ m := by
  induction m with
  | nil => simpa [Memory.write] using h
  | cons d rest ih =>
    unfold Memory.write at h
    split at h
    · simpa using h
    · split at h
      · rcases List.mem_cons.mp h with h | h <;> simp [h]
      · rcases List.mem_cons.mp h with h | h
        · simp [h]
        · rcases ih h with h | h <;> simp [h]

theorem Memory.wf_unwritten : Memory.unwritten.Wf := List.Pairwise.nil

/-- A write keeps the canonical form. -/
theorem Memory.wf_write {m : Memory} (hm : m.Wf) (i : Nat) (v : Elem) : (m.write i v).Wf := by
  induction m with
  | nil => exact List.pairwise_singleton _ _
  | cons c rest ih =>
    have ⟨hc, hrest⟩ := List.pairwise_cons.mp hm
    unfold Memory.write
    split
    · next h =>
      refine List.pairwise_cons.mpr ⟨fun d hd => ?_, hm⟩
      rcases List.mem_cons.mp hd with hd | hd
      · simpa [hd] using h
      · exact Nat.lt_trans h (hc d hd)
    · split
      · next _ h => exact List.pairwise_cons.mpr ⟨fun d hd => h ▸ hc d hd, hrest⟩
      · next h h' =>
        refine List.pairwise_cons.mpr ⟨fun d hd => ?_, ih hrest⟩
        rcases Memory.mem_write hd with hd | hd
        · subst hd; show c.1 < i; omega
        · exact hc d hd

theorem Memory.wf_iff (m : Memory) : m.wf = true ↔ m.Wf := by simp [Memory.wf]

/-- Every slot a canonical slot array lists reads as its entry. -/
theorem Memory.read_of_mem {m : Memory} (hm : m.Wf) {c : Host.Cell} (h : c ∈ m) :
    m.read c.1 = some c.2 := by
  induction m with
  | nil => cases h
  | cons d rest ih =>
    have ⟨hd, hrest⟩ := List.pairwise_cons.mp hm
    rcases List.mem_cons.mp h with h | h
    · subst h; simp [Memory.read]
    · have : d.1 ≠ c.1 := Nat.ne_of_lt (hd c h)
      simp [Memory.read, this, ih hrest h]

/-- The memory operations of the machine keep the canonical form. -/
theorem State.memWrite_wf {s t : State} {i : Nat} {v : Elem} (hs : s.blk.store.Wf)
    (h : s.memWrite i v = .ok t) : t.blk.store.Wf := by
  unfold State.memWrite at h
  split at h
  · cases h; exact Memory.wf_write hs i v
  · cases h

theorem State.openBuffer_wf (s : State) (n : Nat) : (s.openBuffer n).blk.store.Wf :=
  Memory.wf_unwritten

theorem State.closeBuffer_wf (s : State) : s.closeBuffer.blk.store.Wf := Memory.wf_unwritten

theorem State.resetBlock_wf (s : State) : s.resetBlock.blk.store.Wf := Memory.wf_unwritten

theorem State.reset_wf : State.reset.blk.store.Wf := Memory.wf_unwritten

end Sys2Proof.Machine
end

