-- ==== Sys2Proof/Laws/State.lean ====
section
/-!
SUPPORT. One lemma for each field and each update of State, so that no later proof unfolds an
update.
-/

namespace Sys2Proof.Machine

@[simp] theorem State.showResponse_cfg (s : State) (r : Option Response) :
    (s.showResponse r).cfg = s.cfg := rfl
@[simp] theorem State.showResponse_blk (s : State) (r : Option Response) :
    (s.showResponse r).blk = s.blk := rfl
@[simp] theorem State.showResponse_inbox (s : State) (r : Option Response) :
    (s.showResponse r).inbox = s.inbox := rfl
@[simp] theorem State.showResponse_resp (s : State) (r : Option Response) :
    (s.showResponse r).resp = r := rfl
@[simp] theorem State.showResponse_draws (s : State) (r : Option Response) :
    (s.showResponse r).draws = s.draws + 1 := rfl

@[simp] theorem State.respond_cfg (s : State) (st : Status) (d : Option Elem) :
    (s.respond st d).cfg = s.cfg := rfl
@[simp] theorem State.respond_blk (s : State) (st : Status) (d : Option Elem) :
    (s.respond st d).blk = s.blk := rfl
@[simp] theorem State.respond_inbox (s : State) (st : Status) (d : Option Elem) :
    (s.respond st d).inbox = s.inbox := rfl
@[simp] theorem State.respond_resp (s : State) (st : Status) (d : Option Elem) :
    (s.respond st d).resp = some ⟨st, d⟩ := rfl
@[simp] theorem State.respond_draws (s : State) (st : Status) (d : Option Elem) :
    (s.respond st d).draws = s.draws + 1 := rfl
@[simp] theorem State.respond_status (s : State) (st : Status) (d : Option Elem) :
    (s.respond st d).status = some st := rfl
@[simp] theorem State.respond_element (s : State) (st : Status) (d : Option Elem) :
    (s.respond st d).element = d := rfl

/-- A failing operation is a response without an element. -/
@[simp] theorem State.fail_eq_respond (s : State) (st : Status) :
    s.fail st = s.respond st none := rfl

@[simp] theorem State.setSlot_cfg (s : State) (i : Nat) (v : Elem) :
    (s.setSlot i v).cfg = s.cfg := rfl
@[simp] theorem State.setSlot_inbox (s : State) (i : Nat) (v : Elem) :
    (s.setSlot i v).inbox = s.inbox := rfl
@[simp] theorem State.setSlot_resp (s : State) (i : Nat) (v : Elem) :
    (s.setSlot i v).resp = s.resp := rfl
@[simp] theorem State.setSlot_draws (s : State) (i : Nat) (v : Elem) :
    (s.setSlot i v).draws = s.draws := rfl
@[simp] theorem State.setSlot_phase (s : State) (i : Nat) (v : Elem) :
    (s.setSlot i v).blk.phase = s.blk.phase := rfl
@[simp] theorem State.setSlot_widx (s : State) (i : Nat) (v : Elem) :
    (s.setSlot i v).blk.widx = s.blk.widx := rfl
@[simp] theorem State.setSlot_ridx (s : State) (i : Nat) (v : Elem) :
    (s.setSlot i v).blk.ridx = s.blk.ridx := rfl
@[simp] theorem State.setSlot_cap (s : State) (i : Nat) (v : Elem) :
    (s.setSlot i v).blk.cap = s.blk.cap := rfl
@[simp] theorem State.setSlot_store (s : State) (i : Nat) (v : Elem) :
    (s.setSlot i v).blk.store = s.blk.store.write i v := rfl

@[simp] theorem State.setWidx_cfg (s : State) (v : Nat) : (s.setWidx v).cfg = s.cfg := rfl
@[simp] theorem State.setWidx_inbox (s : State) (v : Nat) : (s.setWidx v).inbox = s.inbox := rfl
@[simp] theorem State.setWidx_resp (s : State) (v : Nat) : (s.setWidx v).resp = s.resp := rfl
@[simp] theorem State.setWidx_draws (s : State) (v : Nat) : (s.setWidx v).draws = s.draws := rfl
@[simp] theorem State.setWidx_phase (s : State) (v : Nat) :
    (s.setWidx v).blk.phase = s.blk.phase := rfl
@[simp] theorem State.setWidx_widx (s : State) (v : Nat) : (s.setWidx v).blk.widx = v := rfl
@[simp] theorem State.setWidx_ridx (s : State) (v : Nat) :
    (s.setWidx v).blk.ridx = s.blk.ridx := rfl
@[simp] theorem State.setWidx_cap (s : State) (v : Nat) :
    (s.setWidx v).blk.cap = s.blk.cap := rfl
@[simp] theorem State.setWidx_store (s : State) (v : Nat) :
    (s.setWidx v).blk.store = s.blk.store := rfl

@[simp] theorem State.setRidx_cfg (s : State) (v : Nat) : (s.setRidx v).cfg = s.cfg := rfl
@[simp] theorem State.setRidx_inbox (s : State) (v : Nat) : (s.setRidx v).inbox = s.inbox := rfl
@[simp] theorem State.setRidx_resp (s : State) (v : Nat) : (s.setRidx v).resp = s.resp := rfl
@[simp] theorem State.setRidx_draws (s : State) (v : Nat) : (s.setRidx v).draws = s.draws := rfl
@[simp] theorem State.setRidx_phase (s : State) (v : Nat) :
    (s.setRidx v).blk.phase = s.blk.phase := rfl
@[simp] theorem State.setRidx_widx (s : State) (v : Nat) :
    (s.setRidx v).blk.widx = s.blk.widx := rfl
@[simp] theorem State.setRidx_ridx (s : State) (v : Nat) : (s.setRidx v).blk.ridx = v := rfl
@[simp] theorem State.setRidx_cap (s : State) (v : Nat) :
    (s.setRidx v).blk.cap = s.blk.cap := rfl
@[simp] theorem State.setRidx_store (s : State) (v : Nat) :
    (s.setRidx v).blk.store = s.blk.store := rfl

@[simp] theorem State.openBuffer_cfg (s : State) (n : Nat) : (s.openBuffer n).cfg = s.cfg := rfl
@[simp] theorem State.openBuffer_inbox (s : State) (n : Nat) :
    (s.openBuffer n).inbox = s.inbox := rfl
@[simp] theorem State.openBuffer_draws (s : State) (n : Nat) :
    (s.openBuffer n).draws = s.draws := rfl
@[simp] theorem State.openBuffer_blk (s : State) (n : Nat) :
    (s.openBuffer n).blk = ⟨.active, 0, 0, n, Memory.unwritten⟩ := rfl

@[simp] theorem State.closeBuffer_cfg (s : State) : s.closeBuffer.cfg = s.cfg := rfl
@[simp] theorem State.closeBuffer_inbox (s : State) : s.closeBuffer.inbox = s.inbox := rfl
@[simp] theorem State.closeBuffer_draws (s : State) : s.closeBuffer.draws = s.draws := rfl
@[simp] theorem State.closeBuffer_blk (s : State) :
    s.closeBuffer.blk = ⟨.torn, 0, 0, 0, Memory.unwritten⟩ := rfl

@[simp] theorem State.idleStep_cfg (s : State) : s.idleStep.cfg = s.cfg := rfl
@[simp] theorem State.idleStep_blk (s : State) : s.idleStep.blk = s.blk := rfl
@[simp] theorem State.idleStep_inbox (s : State) : s.idleStep.inbox = s.inbox := rfl
@[simp] theorem State.idleStep_resp (s : State) : s.idleStep.resp = none := rfl

@[simp] theorem State.resetStep_cfg (s : State) : s.resetStep.cfg = s.cfg := rfl
@[simp] theorem State.resetStep_blk (s : State) : s.resetStep.blk = Block.reset := rfl
@[simp] theorem State.resetStep_inbox (s : State) : s.resetStep.inbox = s.inbox := rfl
@[simp] theorem State.resetStep_resp (s : State) : s.resetStep.resp = none := rfl

@[simp] theorem State.resetOf_cfg (cfg : Config) : (State.resetOf cfg).cfg = cfg := rfl
@[simp] theorem State.resetOf_blk (cfg : Config) : (State.resetOf cfg).blk = Block.reset := rfl

@[simp] theorem Block.reset_phase : Block.reset.phase = .uninit := rfl
@[simp] theorem Block.reset_widx : Block.reset.widx = 0 := rfl
@[simp] theorem Block.reset_ridx : Block.reset.ridx = 0 := rfl
@[simp] theorem Block.reset_cap : Block.reset.cap = 0 := rfl
@[simp] theorem Block.reset_store : Block.reset.store = Memory.unwritten := rfl

end Sys2Proof.Machine
end

