-- ==== Sys2Proof/Laws/Ops.lean ====
section
/-!
SUPPORT. For each shared operation one lemma that says everything it can do.
-/

namespace Sys2Proof.Machine

/-- What `orFault` can answer as a next state. -/
theorem orFault_next {α : Type} {r : Except Fault α}
    {k : α → Host.Outcome State Fault Refusal} {t : State} (h : orFault r k = .next t) :
    ∃ a, r = .ok a ∧ k a = .next t := by
  cases r with
  | ok a => exact ⟨a, rfl, h⟩
  | error f => cases h

@[simp] theorem orFault_ok {α : Type} (a : α) (k : α → Host.Outcome State Fault Refusal) :
    orFault (.ok a) k = k a := rfl

/-- `next` has a value exactly under the precondition of R59, and then it is the remainder. -/
theorem nextIndex_ok_iff {i c n : Nat} :
    nextIndex i c = .ok n ↔ i < c ∧ n = (i + 1) % c := by
  unfold nextIndex
  split
  · next h => subst h; simp
  · split
    · next h => simp; omega
    · next h => simp; omega

/-- `next` under the precondition of R59. -/
theorem nextIndex_of_lt {i c : Nat} (h : i < c) : nextIndex i c = .ok ((i + 1) % c) :=
  nextIndex_ok_iff.mpr ⟨h, rfl⟩

/-- The comparator of R63 under its precondition. -/
theorem isFull_of_lt {w c : Nat} (r : Nat) (h : w < c) :
    isFull w r c = decide ((w + 1) % c = r) := by
  simp [isFull, nextIndex_of_lt h, BEq.beq]

/-- The comparator of R62. -/
theorem isEmpty_eq (w r : Nat) : isEmpty w r = decide (w = r) := by simp [isEmpty, BEq.beq]

/-- What a slot read can answer (R34). -/
theorem State.memRead_ok_iff {s : State} {i : Nat} {e : Elem} :
    s.memRead i = .ok e ↔ s.SlotAccessible i ∧ s.blk.store.read i = some e := by
  unfold State.memRead
  split
  · next h =>
    cases hr : s.blk.store.read i with
    | none => simp
    | some v => exact ⟨fun he => ⟨h, by cases he; rfl⟩, fun he => by cases he.2; rfl⟩
  · next h => exact ⟨nofun, fun he => absurd he.1 h⟩

/-- What a slot write can answer (R34). -/
theorem State.memWrite_ok_iff {s t : State} {i : Nat} {v : Elem} :
    s.memWrite i v = .ok t ↔
      s.SlotAccessible i ∧ t = s.setSlot i v := by
  unfold State.memWrite
  split
  · next h => exact ⟨fun he => ⟨h, by cases he; rfl⟩, fun he => by rw [he.2]⟩
  · next h => exact ⟨nofun, fun he => absurd he.1 h⟩

end Sys2Proof.Machine
end

