-- ==== Sys2Proof/Laws/Exec.lean ====
section
/-!
SUPPORT. What each meaning and a step can answer as a next state, said once: the provers cite these
instead of unfolding a meaning.
-/

namespace Sys2Proof.Machine

@[simp] theorem exec_construct (n : Nat) (s : State) :
    exec (.construct n) s = execConstruct n s := rfl
@[simp] theorem exec_push (e : Elem) (s : State) : exec (.push e) s = execPush e s := rfl
@[simp] theorem exec_pop (s : State) : exec .pop s = execPop s := rfl
@[simp] theorem exec_teardown (s : State) : exec .teardown s = execTeardown s := rfl

/-- The state after a successful PUSH of `e` (R76). -/
abbrev State.afterPush (s : State) (e : Elem) : State :=
  ((s.setSlot s.blk.widx e).setWidx ((s.blk.widx + 1) % s.blk.cap)).respond .ok none

/-- The state after a successful POP of `e` (R79). -/
abbrev State.afterPop (s : State) (e : Elem) : State :=
  (s.setRidx ((s.blk.ridx + 1) % s.blk.cap)).respond .ok (some e)

/-- Everything CONSTRUCT can answer (R69). -/
theorem execConstruct_next {n : Nat} {s t : State} (h : execConstruct n s = .next t) :
    (s.blk.phase ≠ .uninit ∧ t = s.respond .badState none) ∨
    (s.blk.phase = .uninit ∧ n = 0 ∧ t = s.respond .badSize none) ∨
    (s.blk.phase = .uninit ∧ n ≠ 0 ∧ s.cfg.depth < n ∧ t = s.respond .allocFail none) ∨
    (s.blk.phase = .uninit ∧ 1 ≤ n ∧ n ≤ s.cfg.depth ∧
      t = (s.openBuffer n).respond .ok none) := by
  unfold execConstruct at h
  split at h
  · next hp => cases h; exact .inl ⟨hp, rfl⟩
  · next hp =>
    have hp := not_not.mp hp
    split at h
    · next h0 => cases h; exact .inr (.inl ⟨hp, h0, rfl⟩)
    · next h0 =>
      split at h
      · next hd => cases h; exact .inr (.inr (.inl ⟨hp, h0, hd, rfl⟩))
      · next hd => cases h; exact .inr (.inr (.inr ⟨hp, by omega, by omega, rfl⟩))

/-- Everything PUSH can answer (R76). -/
theorem execPush_next {e : Elem} {s t : State} (h : execPush e s = .next t) :
    (s.blk.phase ≠ .active ∧ t = s.respond .badState none) ∨
    (s.blk.phase = .active ∧ s.blk.widx < s.blk.cap ∧
      (s.blk.widx + 1) % s.blk.cap = s.blk.ridx ∧ t = s.respond .overflow none) ∨
    (s.blk.phase = .active ∧ s.blk.widx < s.blk.cap ∧
      (s.blk.widx + 1) % s.blk.cap ≠ s.blk.ridx ∧ s.blk.widx < s.cfg.depth ∧
      t = s.afterPush e) := by
  unfold execPush at h
  split at h
  · next hp => cases h; exact .inl ⟨hp, rfl⟩
  · next hp =>
    have hp := not_not.mp hp
    obtain ⟨n, hn, h⟩ := orFault_next h
    obtain ⟨hw, rfl⟩ := nextIndex_ok_iff.mp hn
    split at h
    · next hf => cases h; exact .inr (.inl ⟨hp, hw, hf, rfl⟩)
    · next hf =>
      obtain ⟨u, hu, h⟩ := orFault_next h
      obtain ⟨hacc, rfl⟩ := State.memWrite_ok_iff.mp hu
      cases h
      exact .inr (.inr ⟨hp, hw, hf, hacc.2.2, rfl⟩)

/-- Everything POP can answer (R79). -/
theorem execPop_next {s t : State} (h : execPop s = .next t) :
    (s.blk.phase ≠ .active ∧ t = s.respond .badState none) ∨
    (s.blk.phase = .active ∧ s.blk.widx = s.blk.ridx ∧ t = s.respond .underflow none) ∨
    (∃ e, s.blk.phase = .active ∧ s.blk.widx ≠ s.blk.ridx ∧ s.blk.ridx < s.blk.cap ∧
      s.blk.ridx < s.cfg.depth ∧ s.blk.store.read s.blk.ridx = some e ∧ t = s.afterPop e) := by
  unfold execPop at h
  split at h
  · next hp => cases h; exact .inl ⟨hp, rfl⟩
  · next hp =>
    have hp := not_not.mp hp
    split at h
    · next he => cases h; exact .inr (.inl ⟨hp, by simpa [isEmpty_eq] using he, rfl⟩)
    · next he =>
      obtain ⟨e, hr, h⟩ := orFault_next h
      obtain ⟨n, hn, h⟩ := orFault_next h
      obtain ⟨hw, rfl⟩ := nextIndex_ok_iff.mp hn
      obtain ⟨hacc, hread⟩ := State.memRead_ok_iff.mp hr
      cases h
      exact .inr (.inr ⟨e, hp, by simpa [isEmpty_eq] using he, hw, hacc.2.2, hread, rfl⟩)

/-- Everything TEARDOWN can answer (R90). -/
theorem execTeardown_next {s t : State} (h : execTeardown s = .next t) :
    (s.blk.phase = .active ∧ t = s.closeBuffer.respond .ok none) ∨
    (s.blk.phase ≠ .active ∧ t = s.respond .ok none) := by
  unfold execTeardown at h
  split at h
  · next hp => cases h; exact .inl ⟨hp, rfl⟩
  · next hp => cases h; exact .inr ⟨hp, rfl⟩

/-- Everything a step can answer, by the input it takes (R8). -/
theorem step_next {s t : State} (h : step s = .next t) :
    (s.inbox = [] ∧ t = s.idleStep) ∨
    (∃ w rest, s.inbox = .idle w :: rest ∧ t = State.idleStep { s with inbox := rest }) ∨
    (∃ rest, s.inbox = .reset :: rest ∧ t = State.resetStep { s with inbox := rest }) ∨
    (∃ w rest, s.inbox = .request w :: rest ∧
      exec (decodeRequest s.cfg w) { s with inbox := rest } = .next t) := by
  unfold step poll at h
  cases hi : s.inbox with
  | nil => rw [hi] at h; cases h; exact .inl ⟨rfl, rfl⟩
  | cons e rest =>
    rw [hi] at h
    cases e with
    | idle w => cases h; exact .inr (.inl ⟨w, rest, rfl, rfl⟩)
    | reset => cases h; exact .inr (.inr (.inl ⟨rest, rfl, rfl⟩))
    | request w => exact .inr (.inr (.inr ⟨w, rest, rfl, h⟩))

end Sys2Proof.Machine
end

