-- ==== Sys2Proof/Laws/PerInstr.lean ====
section
/-!
SUPPORT. What holds of every operation as a word, one lemma for each constructor: the two fields of
its canonical request word are its operation code and its argument (`30_encoding.md` R48).
-/

namespace Sys2Proof.Laws

/-- The fields of a word put together from two fields (R48). -/
theorem fields_append (cfg : Config) (a : BitVec cfg.argW) (o : OpCode) :
    opField cfg (a ++ o) = o ∧ argField cfg (a ++ o) = a := by
  constructor
  · exact BitVec.extractLsb'_append_eq_right
  · exact BitVec.extractLsb'_append_eq_left

/-- The op field and the argument field of the canonical word (R47, R48, R49, R50, R51). -/
def CanonicalWord.Statement (i : Instr) : Prop :=
  ∀ cfg : Config,
    opField cfg (encode cfg i) = i.opCode ∧ argField cfg (encode cfg i) = i.argument cfg

theorem CanonicalWord.construct (size : Nat) : CanonicalWord.Statement (.construct size) :=
  fun cfg => fields_append cfg _ _

theorem CanonicalWord.push (element : Elem) : CanonicalWord.Statement (.push element) :=
  fun cfg => fields_append cfg _ _

theorem CanonicalWord.pop : CanonicalWord.Statement .pop :=
  fun cfg => fields_append cfg _ _

theorem CanonicalWord.teardown : CanonicalWord.Statement .teardown :=
  fun cfg => fields_append cfg _ _

end Sys2Proof.Laws
end

