-- ==== Sys2Proof/Machine/Text.lean ====
section
/-!
DEFINITION. The textual spelling of operations and responses (`30_encoding.md` R57): how the spec
writes them, and reading a line of it back. No step uses it (log 9).
-/

namespace Sys2Proof.Machine

/-- An operation as the spec writes it, the operand an unsigned decimal number (R57). -/
def instrText : Instr → String
  | .construct size => "Construct(" ++ toString size ++ ")"
  | .push element => "Push(" ++ toString element.toNat ++ ")"
  | .pop => "Pop()"
  | .teardown => "Teardown()"

/-- The names the spec writes for the statuses (R52, R57). -/
def statusText : Status → String
  | .ok => "OK"
  | .overflow => "OVERFLOW"
  | .underflow => "UNDERFLOW"
  | .allocFail => "ALLOC_FAIL"
  | .badSize => "BAD_SIZE"
  | .badState => "BAD_STATE"

/-- A response as the spec writes it after the arrow: `(10, OK)` or a status name (R57). -/
def responseText (r : Response) : String :=
  match r.dout with
  | some e => "(" ++ toString e.toNat ++ ", " ++ statusText r.status ++ ")"
  | none => statusText r.status

/-- An operation with its response, `Pop() -> (10, OK)` (R57). -/
def exchangeText (i : Instr) (r : Response) : String := instrText i ++ " -> " ++ responseText r

/-- A decimal digit's value. -/
def digitValue (c : Char) : Option Nat :=
  if '0'.toNat ≤ c.toNat ∧ c.toNat ≤ '9'.toNat then some (c.toNat - '0'.toNat) else none

/-- A closing parenthesis after at least one decimal digit: the operand (R57). `seen` says that a
digit has been read and `acc` is the number so far. -/
def readOperand : List Char → Bool → Nat → Option Nat
  | [], _, _ => none
  | c :: rest, seen, acc =>
    match digitValue c with
    | some d => readOperand rest true (acc * 10 + d)
    | none => if c = ')' ∧ seen = true ∧ rest = [] then some acc else none

/-- What follows `head` in `line`, if `line` begins with it. -/
def afterHead : List Char → List Char → Option (List Char)
  | [], line => some line
  | _ :: _, [] => none
  | h :: hs, c :: cs => if h = c then afterHead hs cs else none

/-- An element operand, if it is an unsigned `ELEM_W`-bit number (R50, R57). -/
def elementOperand (n : Nat) : Option Instr :=
  if n < 2 ^ elemW then some (.push (BitVec.ofNat elemW n)) else none

/-- Reads one line of the spec's spelling: exactly one of the four forms, with no spaces (R57;
DESIGN CHOICE, safe: log 9). -/
def readInstr (line : String) : Option Instr :=
  let chars := line.toList
  match afterHead "Construct(".toList chars with
  | some rest => (readOperand rest false 0).map Instr.construct
  | none =>
    match afterHead "Push(".toList chars with
    | some rest => (readOperand rest false 0).bind elementOperand
    | none =>
      if chars = "Pop()".toList then some .pop
      else if chars = "Teardown()".toList then some .teardown
      else none

end Sys2Proof.Machine
end

