-- ==== Sys2Proof/Tests/Slice0.lean ====
section
/-!
SUPPORT. The model's own tests: ill-formed terms, words written out from `30_encoding.md`, single
steps from `95_test_vectors.md`, and for each statement with hypotheses a state that meets them.
Expected values are the spec's tables or hand calculation from its rules.
-/

namespace Sys2Proof.Tests

open Sys2Proof.Machine

/-! ### Well-formedness: each check refuses an ill-formed term -/

theorem test_size_needs_idxW_bits : Instr.wellFormed ⟨3, 7⟩ (.construct 8) = false := by decide
theorem test_size_fits_idxW_bits : Instr.wellFormed ⟨3, 7⟩ (.construct 7) = true := by decide
theorem test_idxW_zero_is_illegal : ¬ (Config.mk 0 1).Legal := by decide
theorem test_depth_zero_is_illegal : ¬ (Config.mk 3 0).Legal := by decide
theorem test_depth_above_range_is_illegal : ¬ (Config.mk 3 8).Legal := by decide
theorem test_depth_at_range_is_legal : (Config.mk 3 7).Legal := by decide
theorem test_reference_is_legal : referenceConfig.Legal := by decide
theorem test_store_unsorted_is_refused : Memory.wf [(2, 1#8), (1, 1#8)] = false := by decide
theorem test_store_repeated_is_refused : Memory.wf [(2, 1#8), (2, 3#8)] = false := by decide
theorem test_store_write_sorts :
    Memory.write [(1, 5#8), (4, 6#8)] 2 7#8 = [(1, 5#8), (2, 7#8), (4, 6#8)] := by decide

/-! ### Words written out bit by bit (30_encoding.md section 8, 95_test_vectors.md section 2.2) -/

theorem test_decode_construct_5 : decodeRequest ⟨8, 16⟩ 0b0000010100 = .construct 5 := by decide
theorem test_decode_push_200 : decodeRequest ⟨8, 16⟩ 0b1100100001 = .push 200#8 := by decide
theorem test_decode_push_255 : decodeRequest ⟨3, 5⟩ 0b1111111101 = .push 255#8 := by decide
theorem test_decode_pop : decodeRequest ⟨8, 16⟩ 0b0000000010 = .pop := by decide
theorem test_decode_pop_ignored_bits : decodeRequest ⟨8, 16⟩ 0b0101010110 = .pop := by decide
theorem test_decode_teardown : decodeRequest ⟨8, 16⟩ 0b0000000011 = .teardown := by decide
theorem test_decode_teardown_ignored_bits : decodeRequest ⟨8, 16⟩ 0b1111111111 = .teardown := by
  decide
/-- `IDX_W = 3`: the upper argument bits of a CONSTRUCT are ignored. -/
theorem test_decode_construct_narrow : decodeRequest ⟨3, 5⟩ 0b1111110100 = .construct 5 := by decide
/-- `IDX_W = 8`: the same word is a size of 253. -/
theorem test_decode_construct_wide : decodeRequest ⟨8, 16⟩ 0b1111110100 = .construct 253 := by
  decide
/-- `IDX_W = 9`: a PUSH ignores the ninth argument bit. -/
theorem test_decode_push_wide_arg : decodeRequest ⟨9, 16⟩ 0b10000101001 = .push 10#8 := by decide
theorem test_table_word : decodeTableWord 16 0x014 = some (.construct 5) := by decide
theorem test_encode_push_200 : encodeRequest ⟨8, 16⟩ (.push 200#8) = 0x321 := by decide
theorem test_encode_construct_7 : encodeRequest ⟨8, 16⟩ (.construct 7) = 0x01C := by decide

/-! ### The spelling of R57 -/

theorem test_text_push : instrText (.push 10#8) = "Push(10)" := by decide
theorem test_text_pop_response :
    exchangeText .pop ⟨.ok, some 10#8⟩ = "Pop() -> (10, OK)" := by decide
theorem test_read_construct : readInstr "Construct(5)" = some (.construct 5) := by decide
theorem test_read_push_too_wide : readInstr "Push(256)" = none := by decide

/-! ### Small states -/

/-- An ACTIVE state with nothing to come. -/
def activeState (cfg : Config) (cap widx ridx : Nat) (store : Memory) : State where
  cfg := cfg
  blk := ⟨.active, widx, ridx, cap, store⟩
  inbox := []
  resp := none
  draws := 0

/-- Three elements held across the wrap: slots 3, 4 and 0 of 5; slot 1 holds a stale value. -/
def wrapped : State := activeState ⟨3, 7⟩ 5 1 3 [(0, 55#8), (1, 99#8), (3, 33#8), (4, 44#8)]

/-- `wrapped` with another stale value and an unwritten slot where `wrapped` has none. -/
def wrappedStale : State := activeState ⟨3, 7⟩ 5 1 3 [(0, 55#8), (2, 7#8), (3, 33#8), (4, 44#8)]

/-- Full: four elements in a buffer of capacity 5. -/
def fullState : State := activeState ⟨3, 7⟩ 5 4 0 [(0, 0#8), (1, 1#8), (2, 2#8), (3, 3#8)]

/-- Empty away from index 0. -/
def emptyState : State := activeState ⟨3, 7⟩ 5 2 2 []

/-- The degenerate capacity 1. -/
def oneSlot : State := activeState ⟨1, 1⟩ 1 0 0 []

/-- The smallest useful buffer, full and empty. -/
def fullTwo : State := activeState ⟨3, 7⟩ 2 1 0 [(0, 8#8)]
def emptyTwo : State := activeState ⟨3, 7⟩ 2 1 1 []

/-- After reset in the configuration of vector V9. -/
def fresh : State := State.resetOf ⟨3, 4⟩

theorem wrapped_inv : wrapped.Inv :=
  ⟨by decide, by decide, by decide, by decide, by decide, by decide, by decide⟩
theorem wrappedStale_inv : wrappedStale.Inv :=
  ⟨by decide, by decide, by decide, by decide, by decide, by decide, by decide⟩
theorem fullState_inv : fullState.Inv :=
  ⟨by decide, by decide, by decide, by decide, by decide, by decide, by decide⟩
theorem emptyState_inv : emptyState.Inv :=
  ⟨by decide, by decide, by decide, by decide, by decide, by decide, by decide⟩
theorem oneSlot_inv : oneSlot.Inv :=
  ⟨by decide, by decide, by decide, by decide, by decide, by decide, by decide⟩
theorem fullTwo_inv : fullTwo.Inv :=
  ⟨by decide, by decide, by decide, by decide, by decide, by decide, by decide⟩
theorem emptyTwo_inv : emptyTwo.Inv :=
  ⟨by decide, by decide, by decide, by decide, by decide, by decide, by decide⟩
theorem fresh_inv : fresh.Inv :=
  ⟨by decide, by decide, by decide, by decide, by decide, by decide, by decide⟩

/-! ### Single steps -/

/-- The next state, if the outcome is one. -/
def nextOf (o : Host.Outcome State Fault Refusal) : Option State :=
  match o with
  | .next t => some t
  | .fault _ => none
  | .refused _ => none

/-- Vector V9 step 4: `size = DEPTH` succeeds. -/
theorem test_construct_depth :
    (nextOf (exec (.construct 4) fresh)).map (fun t => (t.status, t.blk)) =
      some (some .ok, ⟨.active, 0, 0, 4, []⟩) := by decide
/-- Vector V9 step 2: `size = DEPTH + 1` is the allocation failure. -/
theorem test_construct_above_depth :
    (nextOf (exec (.construct 5) fresh)).map (fun t => (t.status, t.blk)) =
      some (some .allocFail, fresh.blk) := by decide
/-- 95_test_vectors.md section 2.4: `5, 4, 1` with `Push(9)` writes slot 4 and wraps. -/
theorem test_push_wraps :
    (nextOf (exec (.push 9#8) (activeState ⟨3, 7⟩ 5 4 1 []))).map (fun t => (t.status, t.blk)) =
      some (some .ok, ⟨.active, 0, 1, 5, [(4, 9#8)]⟩) := by decide
/-- 95_test_vectors.md section 2.4: `5, 0, 1` with `Push(9)` is full with `w < r`. -/
theorem test_push_full_wrapped :
    (nextOf (exec (.push 9#8) (activeState ⟨3, 7⟩ 5 0 1 []))).map (fun t => (t.status, t.blk)) =
      some (some .overflow, ⟨.active, 0, 1, 5, []⟩) := by decide
/-- 95_test_vectors.md section 2.4: `5, 0, 4` with `STORE[4] = 77`. -/
theorem test_pop_wraps :
    (nextOf (exec .pop (activeState ⟨3, 7⟩ 5 0 4 [(4, 77#8)]))).map
        (fun t => (t.resp, t.blk)) =
      some (some ⟨.ok, some 77#8⟩, ⟨.active, 0, 0, 5, [(4, 77#8)]⟩) := by decide
/-- Vector V7 step 6: EMPTY is 1 in TORN, yet POP answers BAD_STATE. -/
theorem test_pop_torn :
    (nextOf (exec .pop { fresh with blk := ⟨.torn, 0, 0, 0, []⟩ })).map
        (fun t => (t.status, t.emptyOut)) =
      some (some .badState, true) := by decide
/-- 95_test_vectors.md section 2.5: TEARDOWN of a full buffer. -/
theorem test_teardown_full :
    (nextOf (exec .teardown fullState)).map (fun t => (t.status, t.blk)) =
      some (some .ok, ⟨.torn, 0, 0, 0, []⟩) := by decide
/-- 95_test_vectors.md section 2.5: TEARDOWN in UNINIT leaves the reset state. -/
theorem test_teardown_uninit :
    (nextOf (exec .teardown fresh)).map (fun t => (t.status, t.blk)) =
      some (some .ok, fresh.blk) := by decide
/-- The next step after reset runs the word placed for it. -/
theorem test_step_runs_fetched_word :
    (nextOf (step (State.reset.withFetchWord 16 0x014))).map (fun t => (t.status, t.blk)) =
      some (some .ok, ⟨.active, 0, 0, 5, []⟩) := by decide
/-- 95_test_vectors.md section 2.6: `rst` from ACTIVE. -/
theorem test_reset_from_active :
    (nextOf (step { wrapped with inbox := [.reset] })).map (fun t => (t.resp, t.blk)) =
      some (none, ⟨.uninit, 0, 0, 0, []⟩) := by decide

/-! ### The hypotheses of the statements are met -/

theorem witness_DecodeInvertsEncode :
    Instr.wellFormed ⟨3, 7⟩ (.construct 7) = true ∧ Instr.wellFormed ⟨3, 7⟩ (.push 255#8) = true ∧
      Instr.wellFormed ⟨3, 7⟩ .pop = true ∧ Instr.wellFormed ⟨3, 7⟩ .teardown = true := by decide

theorem witness_EncodedWordIsArgTimesFourPlusOp : 7 < 2 ^ (Config.mk 3 7).idxW := by decide

/-- Two words for each operation that differ in ignored bits only. -/
theorem witness_IgnoredArgumentBitsHaveNoEffect :
    (0x3F4 % 4 = 0x014 % 4 ∧ 0x3F4 % 4 = 0 ∧
      0x3F4 / 4 % 2 ^ (Config.mk 3 7).idxW = 0x014 / 4 % 2 ^ (Config.mk 3 7).idxW) ∧
    (0x429 % 4 = 0x029 % 4 ∧ 0x429 % 4 = 1 ∧ 0x429 / 4 % 2 ^ elemW = 0x029 / 4 % 2 ^ elemW) ∧
    (0x3FE % 4 = 0x002 % 4 ∧ 0x3FE % 4 = 2) ∧ (0x3FF % 4 = 0x003 % 4 ∧ 0x3FF % 4 = 3) := by decide

theorem witness_NextIsCompareAndWrap : 0 < 1 ∧ 3 < 5 ∧ 4 < 5 := by decide

theorem witness_FixedWidthIncrementNeverOverflows :
    (6 < 7 ∧ 7 ≤ 2 ^ 3 - 1) ∧ (0 < 1 ∧ 1 ≤ 2 ^ 1 - 1) := by decide

theorem witness_CapacityOneIsEmptyAndFull :
    (oneSlot.blk.phase = .active ∧ oneSlot.blk.cap = 1 ∧ oneSlot.blk.widx < 1 ∧
      oneSlot.blk.ridx < 1) ∧ (2 ≤ 2 ∧ 1 < 2 ∧ 0 < 2) := by decide

theorem witness_EmptyAndFullByOccupancy : (4 < 5 ∧ 0 < 5) ∧ (2 < 5 ∧ 2 < 5) ∧ 0 < 1 := by decide

theorem witness_OccupancyChangesByOne :
    (wrapped.Inv ∧ Answers (.push 9#8) wrapped .ok (wrapped.afterPush 9#8)) ∧
    (wrapped.Inv ∧ Answers .pop wrapped .ok (wrapped.afterPop 33#8)) ∧
    (fresh.Inv ∧ Answers (.construct 4) fresh .ok ((fresh.openBuffer 4).respond .ok none)) ∧
    (fullState.Inv ∧
      Answers (.push 9#8) fullState .overflow (fullState.respond .overflow none)) :=
  ⟨⟨wrapped_inv, rfl, rfl, rfl, rfl⟩, ⟨wrapped_inv, rfl, rfl, rfl, rfl⟩,
    ⟨fresh_inv, rfl, rfl, rfl, rfl⟩, ⟨fullState_inv, rfl, rfl, rfl, rfl⟩⟩

/-- One state for each clause, with the sizes at the boundaries. -/
theorem witness_ConstructFollowsItsRule :
    wrapped.blk.phase ≠ .uninit ∧ fresh.blk.phase = .uninit ∧ fresh.cfg.depth = 4 ∧
      (5 ≠ 0 ∧ fresh.cfg.depth < 5) ∧ (1 ≤ 1 ∧ 1 ≤ fresh.cfg.depth) ∧
      (1 ≤ 4 ∧ 4 ≤ fresh.cfg.depth) := by decide

theorem witness_FailedConstructCanBeRetried :
    Answers (.construct 5) fresh .allocFail (fresh.respond .allocFail none) ∧
      Status.allocFail ≠ .ok ∧ fresh.blk.phase = .uninit ∧ 1 ≤ 4 ∧ 4 ≤ fresh.cfg.depth :=
  ⟨⟨rfl, rfl, rfl, rfl⟩, by decide, rfl, by decide, by decide⟩

theorem witness_PushFollowsItsRule :
    fresh.blk.phase ≠ .active ∧
    (fullState.blk.phase = .active ∧ fullState.blk.widx < fullState.blk.cap ∧
      fullState.blk.ridx < fullState.blk.cap ∧ fullState.blk.cap ≤ fullState.cfg.depth ∧
      (fullState.blk.widx + 1) % fullState.blk.cap = fullState.blk.ridx) ∧
    (wrapped.blk.phase = .active ∧ wrapped.blk.widx < wrapped.blk.cap ∧
      wrapped.blk.ridx < wrapped.blk.cap ∧ wrapped.blk.cap ≤ wrapped.cfg.depth ∧
      (wrapped.blk.widx + 1) % wrapped.blk.cap ≠ wrapped.blk.ridx) := by decide

theorem witness_PopFollowsItsRule :
    fresh.blk.phase ≠ .active ∧
    (emptyState.blk.phase = .active ∧ emptyState.blk.widx = emptyState.blk.ridx) ∧
    (wrapped.blk.phase = .active ∧ wrapped.blk.widx ≠ wrapped.blk.ridx ∧
      wrapped.blk.widx < wrapped.blk.cap ∧ wrapped.blk.ridx < wrapped.blk.cap ∧
      wrapped.blk.cap ≤ wrapped.cfg.depth ∧
      wrapped.blk.store.read (popSlot wrapped) = some 33#8) := by decide

theorem witness_TeardownFollowsItsRule :
    wrapped.blk.phase = .active ∧ fresh.blk.phase ≠ .active := by decide

/-- Three inputs without `rst`, and one `rst` after them. -/
def torndownInputs : List Input := [.request 2, .idle 0, .request 0x014, .reset]

theorem witness_TornStaysUntilReset :
    ({ wrapped with inbox := torndownInputs } : State).blk.phase = .active ∧
    Answers .teardown { wrapped with inbox := torndownInputs } .ok
      ((State.closeBuffer { wrapped with inbox := torndownInputs }).respond .ok none) ∧
    ∀ e ∈ torndownInputs.take 3, e ≠ .reset :=
  ⟨rfl, ⟨rfl, rfl, rfl, rfl⟩, by decide⟩

/-- A run of two TEARDOWNs, the first of which releases the storage. -/
theorem witness_StorageReleasedAtMostOnce :
    (∀ e ∈ ({ wrapped with inbox := [.request 3, .request 3] } : State).inbox.take 2,
      e ≠ .reset) ∧
    releases 2 { wrapped with inbox := [.request 3, .request 3] } = 1 := by decide

theorem witness_StepRunsDecodedRequest :
    ({ wrapped with inbox := [.request 2] } : State).inbox = .request 2 :: [] := rfl

theorem witness_StepWithoutRequestChangesNothing : wrapped.Inv := wrapped_inv

/-- A step from a state of the invariant: a PUSH of 9. -/
def stepping : State := { wrapped with inbox := [.request 0x025] }

theorem stepping_next : step stepping = .next (State.afterPush wrapped 9#8) := rfl

theorem witness_StepTakesOneInput :
    step stepping = .next (State.afterPush wrapped 9#8) ∧ wrapped.inbox = [] := ⟨rfl, rfl⟩

theorem witness_ResetStateMeetsInvariant : (Config.mk 1 1).Legal ∧ (Config.mk 3 7).Legal := by decide

theorem witness_EveryStepKeepsInvariant :
    stepping.Inv ∧ step stepping = .next (State.afterPush wrapped 9#8) :=
  ⟨⟨by decide, by decide, by decide, by decide, by decide, by decide, by decide⟩, rfl⟩

theorem witness_IndicesStayInRange :
    stepping.blk.IndicesInRange ∧ step stepping = .next (State.afterPush wrapped 9#8) :=
  ⟨by decide, rfl⟩

theorem witness_CapacityStaysFixedWhileActive :
    stepping.CapInRange ∧ step stepping = .next (State.afterPush wrapped 9#8) ∧
      stepping.blk.phase = .active ∧ (State.afterPush wrapped 9#8).blk.phase = .active :=
  ⟨by decide, rfl, rfl, rfl⟩

theorem witness_InactiveStateStaysCleared :
    ({ fresh with inbox := [.request 0x010] } : State).blk.ClearedWhenInactive ∧
      step { fresh with inbox := [.request 0x010] } =
        .next ((fresh.openBuffer 4).respond .ok none) :=
  ⟨by decide, rfl⟩

/-- A run that constructs, pushes once, and holds one element. -/
theorem witness_HeldSlotsAreWrittenOnEveryRun :
    (Config.mk 3 7).Legal ∧
    ∃ t, Sys2Proof.core.run 2 (startOf ⟨3, 7⟩ [.request 0x014, .request 0x029]) = .next t ∧
      t.blk.phase = .active ∧ 0 < t.blk.count :=
  ⟨by decide, _, rfl, rfl, by decide⟩

theorem witness_NoRunReachesModelFault : (Config.mk 3 7).Legal ∧ (Config.mk 1 1).Legal := by decide

theorem witness_LifecycleTableIsFollowed : fresh.Inv ∧ wrapped.Inv ∧ fullState.Inv ∧ emptyState.Inv :=
  ⟨fresh_inv, wrapped_inv, fullState_inv, emptyState_inv⟩

theorem witness_EveryRequestIsAnswered : oneSlot.Inv := oneSlot_inv

theorem witness_FailuresChangeNothing :
    exec (.push 9#8) fullState = .next (fullState.respond .overflow none) ∧
      (fullState.respond .overflow none).status = some .overflow ∧ Status.overflow ≠ .ok :=
  ⟨rfl, rfl, by decide⟩

/-- Each clause: an element to pop with room left, a full buffer, an empty one. -/
theorem witness_BlockRefinesBoundedQueue :
    (wrapped.Inv ∧ wrapped.blk.phase = .active ∧ wrapped.blk.Holds [33#8, 44#8, 55#8] ∧
      [33#8, 44#8, 55#8].length < wrapped.blk.cap - 1) ∧
    (fullState.Inv ∧ fullState.blk.phase = .active ∧ fullState.blk.Holds [0#8, 1#8, 2#8, 3#8] ∧
      fullState.blk.cap - 1 ≤ [0#8, 1#8, 2#8, 3#8].length) ∧
    (emptyState.Inv ∧ emptyState.blk.phase = .active ∧ emptyState.blk.Holds []) ∧
    (fresh.Inv ∧ Answers (.construct 4) fresh .ok ((fresh.openBuffer 4).respond .ok none)) :=
  ⟨⟨wrapped_inv, by decide⟩, ⟨fullState_inv, by decide⟩, ⟨emptyState_inv, by decide⟩,
    ⟨fresh_inv, rfl, rfl, rfl, rfl⟩⟩

theorem witness_FifoLaw :
    (Config.mk 3 5).Legal ∧ (1 ≤ 5 ∧ 5 ≤ (Config.mk 3 5).depth ∧
      [10#8, 20#8, 30#8, 40#8].length ≤ 5 - 1) ∧
    (1 ≤ 1 ∧ 1 ≤ (Config.mk 3 5).depth ∧ ([] : List Elem).length ≤ 1 - 1) := by decide

theorem witness_FillThenOverflow :
    (Config.mk 3 5).Legal ∧ (1 ≤ 5 ∧ 5 ≤ (Config.mk 3 5).depth ∧
      [1#8, 2#8, 3#8, 4#8, 5#8].length = 5) ∧ (1 ≤ 1 ∧ 1 ≤ (Config.mk 3 5).depth ∧
      [7#8].length = 1) := by decide

theorem witness_FreshBufferUnderflows :
    (Config.mk 3 5).Legal ∧ (1 ≤ 1 ∧ 1 ≤ (Config.mk 3 5).depth) ∧
      (1 ≤ 5 ∧ 5 ≤ (Config.mk 3 5).depth) := by decide

theorem witness_EqualIndicesUnderflow :
    emptyState.blk.phase = .active ∧ emptyState.blk.widx = emptyState.blk.ridx := by decide

/-- Two states with the same held elements and different stale slots. -/
theorem witness_StaleSlotsAreUnobservable :
    wrapped.Inv ∧ wrappedStale.Inv ∧ SameToRequester wrapped wrappedStale ∧
      wrapped.blk.store ≠ wrappedStale.blk.store :=
  ⟨wrapped_inv, wrappedStale_inv, ⟨rfl, rfl, rfl, rfl, rfl, rfl, fun _ => by decide⟩, by decide⟩

/-- The same two states with a POP to come. -/
theorem witness_EveryStepKeepsStatesIndistinguishable :
    State.Inv { wrapped with inbox := [.request 2] } ∧
    State.Inv { wrappedStale with inbox := [.request 2] } ∧
    SameToRequester { wrapped with inbox := [.request 2] }
      { wrappedStale with inbox := [.request 2] } :=
  ⟨⟨by decide, by decide, by decide, by decide, by decide, by decide, by decide⟩,
    ⟨by decide, by decide, by decide, by decide, by decide, by decide, by decide⟩,
    ⟨rfl, rfl, rfl, rfl, rfl, rfl, fun _ => by decide⟩⟩

theorem witness_PushAndPopOrderIsObservable :
    (fullTwo.Inv ∧ fullTwo.blk.phase = .active ∧ 2 ≤ fullTwo.blk.cap ∧
      isFull fullTwo.blk.widx fullTwo.blk.ridx fullTwo.blk.cap = true) ∧
    (emptyTwo.Inv ∧ emptyTwo.blk.phase = .active ∧ 2 ≤ emptyTwo.blk.cap ∧
      isEmpty emptyTwo.blk.widx emptyTwo.blk.ridx = true) :=
  ⟨⟨fullTwo_inv, by decide⟩, ⟨emptyTwo_inv, by decide⟩⟩

theorem witness_EmptyOutputShowsEqualIndices :
    fresh.blk.ClearedWhenInactive ∧ fresh.blk.phase ≠ .active := by decide

theorem witness_FullOutputShowsFullBuffer :
    (fullState.blk.phase = .active ∧ fullState.blk.widx < fullState.blk.cap) ∧
    fresh.blk.phase ≠ .active ∧
    (oneSlot.blk.phase = .active ∧ oneSlot.blk.cap = 1 ∧ oneSlot.blk.widx < 1 ∧
      oneSlot.blk.ridx < 1) := by decide

theorem witness_ObservationOutputsShowRegisters : fullState.Inv ∧ fresh.Inv :=
  ⟨fullState_inv, fresh_inv⟩

theorem witness_ResponseWordLayout :
    (fullState.respond .overflow none).resp = some ⟨.overflow, none⟩ ∧
      (wrapped.afterPop 33#8).resp = some ⟨.ok, some 33#8⟩ := ⟨rfl, rfl⟩

/-- Each status is answered somewhere. -/
theorem witness_StatusCodesAndProducers :
    (exec (.push 9#8) fullState = .next (fullState.respond .overflow none)) ∧
    (exec .pop emptyState = .next (emptyState.respond .underflow none)) ∧
    (exec (.construct 5) fresh = .next (fresh.respond .allocFail none)) ∧
    (exec (.construct 0) fresh = .next (fresh.respond .badSize none)) ∧
    (exec .pop fresh = .next (fresh.respond .badState none)) := ⟨rfl, rfl, rfl, rfl, rfl⟩

theorem witness_ElementOnlyFromSuccessfulPop :
    exec .pop wrapped = .next (wrapped.afterPop 33#8) ∧
      exec .pop emptyState = .next (emptyState.respond .underflow none) := ⟨rfl, rfl⟩

theorem witness_PushAndPopTouchOneCursor :
    exec (.push 9#8) wrapped = .next (wrapped.afterPush 9#8) ∧
      exec .pop wrapped = .next (wrapped.afterPop 33#8) := ⟨rfl, rfl⟩

theorem witness_MemoryPrimitivesMeetTheirRule :
    wrapped.blk.cap ≤ wrapped.cfg.depth ∧ wrapped.blk.phase = .active ∧
      (4 < wrapped.blk.cap ∧ wrapped.blk.store.read 4 = some 44#8) ∧
      (2 < wrapped.blk.cap ∧ wrapped.blk.store.read 2 = none) ∧
      wrapped.blk.cap ≤ 5 ∧
      (fresh.blk.cap ≤ fresh.cfg.depth ∧ fresh.blk.phase ≠ .active) := by decide

end Sys2Proof.Tests
end

/-!
PROOF. The step and the port, and the observation outputs (`00_scope.md`): what a step does with the
next input, that every decoded operation is well-formed, what every operation leaves to the port, and
that the registers fit the `IDX_W` output wires.
-/

namespace Sys2Proof

/-! ### The decoder -/

/-- The size operand has `IDX_W` bits (R49). -/
theorem sizeField_lt (cfg : Config) (arg : BitVec cfg.argW) : sizeField cfg arg < 2 ^ cfg.idxW :=
  (arg.extractLsb' 0 cfg.idxW).isLt

/-- Whatever `op` selects, the operand read from the word fits its field (R47, R49, R51). -/
theorem decode_wellFormed (cfg : Config) (req : BitVec cfg.reqW) :
    (decode cfg req).wellFormed cfg = true := by
  unfold decode
  split
  · exact decide_eq_true (sizeField_lt cfg _)
  · split
    · rfl
    · split <;> rfl

/-- `DEPTH` can be written in `IDX_W` bits (R6). -/
theorem Config.Legal.depth_lt {cfg : Config} (h : cfg.Legal) : cfg.depth < 2 ^ cfg.idxW := by
  obtain ⟨_, _, hdepth⟩ := h
  have hpos := Nat.two_pow_pos cfg.idxW
  omega

end Sys2Proof

namespace Sys2Proof.Machine

/-! ### A step, by the input it takes -/

theorem step_of_inbox_nil {s : State} (h : s.inbox = []) : step s = .next s.idleStep := by
  simp only [step, poll, h]

theorem step_of_inbox_request {s : State} {w : Nat} {rest : List Input}
    (h : s.inbox = .request w :: rest) :
    step s = exec (decodeRequest s.cfg w) { s with inbox := rest } := by
  simp only [step, poll, h]

/-- The frame every operation shares: it touches neither the configuration nor the inputs to come. -/
theorem exec_keeps_cfg_inbox {i : Instr} {s t : State} (h : exec i s = .next t) :
    t.cfg = s.cfg ∧ t.inbox = s.inbox := by
  cases i with
  | construct size =>
    obtain ⟨_, rfl⟩ | ⟨_, _, rfl⟩ | ⟨_, _, _, rfl⟩ | ⟨_, _, _, rfl⟩ := execConstruct_next h
    all_goals exact ⟨rfl, rfl⟩
  | push element =>
    obtain ⟨_, rfl⟩ | ⟨_, _, _, rfl⟩ | ⟨_, _, _, _, rfl⟩ := execPush_next h
    all_goals exact ⟨rfl, rfl⟩
  | pop =>
    obtain ⟨_, rfl⟩ | ⟨_, _, rfl⟩ | ⟨_, _, _, _, _, _, rfl⟩ := execPop_next h
    all_goals exact ⟨rfl, rfl⟩
  | teardown =>
    obtain ⟨_, rfl⟩ | ⟨_, rfl⟩ := execTeardown_next h
    all_goals exact ⟨rfl, rfl⟩

/-- Every step keeps the configuration and takes exactly the next input (R8). -/
theorem step_keeps_cfg_takes_input {s t : State} (h : step s = .next t) :
    t.cfg = s.cfg ∧ t.inbox = s.inbox.tail := by
  obtain ⟨hin, rfl⟩ | ⟨_, _, hin, rfl⟩ | ⟨_, hin, rfl⟩ | ⟨_, _, hin, hexec⟩ := step_next h
  · simp [hin]
  · simp [hin]
  · simp [hin]
  · simpa [hin] using exec_keeps_cfg_inbox hexec

/-! ### The registers on the output wires -/

/-- In every phase the indices are at most `CAP`, and `CAP` is at most `DEPTH` (R25, R26, R27). -/
theorem State.Inv.registers_le {s : State} (h : s.Inv) :
    s.blk.widx ≤ s.blk.cap ∧ s.blk.ridx ≤ s.blk.cap ∧ s.blk.cap ≤ s.cfg.depth := by
  by_cases hp : s.blk.phase = .active
  · obtain ⟨hw, hr⟩ := h.indices hp
    obtain ⟨_, hcap⟩ := h.capacity hp
    exact ⟨hw.le, hr.le, hcap⟩
  · obtain ⟨hw, hr, hcap, _⟩ := h.cleared hp
    omega

/-- The three registers fit `IDX_W` bits (R5, R61). -/
theorem State.Inv.registers_lt {s : State} (h : s.Inv) :
    s.blk.widx < 2 ^ s.cfg.idxW ∧ s.blk.ridx < 2 ^ s.cfg.idxW ∧ s.blk.cap < 2 ^ s.cfg.idxW := by
  obtain ⟨hw, hr, hcap⟩ := h.registers_le
  have hdepth := h.legal.depth_lt
  omega

@[simp] theorem State.outputs_empty (s : State) : s.outputs.empty = s.emptyOut := rfl
@[simp] theorem State.outputs_full (s : State) : s.outputs.full = s.fullOut := rfl

/-- An output wire bundle carries the register modulo `2^IDX_W` (R24). -/
@[simp] theorem State.outputs_widx_toNat (s : State) :
    s.outputs.widx.toNat = s.blk.widx % 2 ^ s.cfg.idxW := BitVec.toNat_ofNat _ _
@[simp] theorem State.outputs_ridx_toNat (s : State) :
    s.outputs.ridx.toNat = s.blk.ridx % 2 ^ s.cfg.idxW := BitVec.toNat_ofNat _ _
@[simp] theorem State.outputs_cap_toNat (s : State) :
    s.outputs.cap.toNat = s.blk.cap % 2 ^ s.cfg.idxW := BitVec.toNat_ofNat _ _

/-- The three codes of R14 are distinct, so the PHASE output tells the phases apart. -/
@[simp] theorem Phase.code_inj {p q : Phase} : p.code = q.code ↔ p = q := by
  cases p <;> cases q <;> decide

theorem State.outputs_phase_eq_code_iff (s : State) (p : Phase) :
    s.outputs.phase = p.code ↔ s.blk.phase = p := Phase.code_inj

/-! ### The obligations -/

/-- Settles O21: the first half by the frame of a step, the second because the step on an empty list
of inputs is the idle step (R58). -/
theorem stepTakesOneInput : Obligations.StepTakesOneInput :=
  ⟨fun _ _ => step_keeps_cfg_takes_input,
    fun s hin => ⟨s.idleStep, step_of_inbox_nil hin, s.idleStep_blk, s.idleStep_resp⟩⟩

/-- Settles O41: the invariant keeps the registers below `2^IDX_W`, so nothing is cut off, and the
phase codes are distinct. -/
theorem observationOutputsShowRegisters : Obligations.ObservationOutputsShowRegisters := by
  intro s hs
  obtain ⟨hw, hr, hcap⟩ := hs.registers_lt
  refine ⟨?widx, ?ridx, ?cap, ?uninit, ?active, ?torn, s.outputs_empty, s.outputs_full⟩
  case widx => rw [State.outputs_widx_toNat, Nat.mod_eq_of_lt hw]
  case ridx => rw [State.outputs_ridx_toNat, Nat.mod_eq_of_lt hr]
  case cap => rw [State.outputs_cap_toNat, Nat.mod_eq_of_lt hcap]
  case uninit => exact s.outputs_phase_eq_code_iff .uninit
  case active => exact s.outputs_phase_eq_code_iff .active
  case torn => exact s.outputs_phase_eq_code_iff .torn

/-- Settles O18: the request arm of a step, with the decoder's well-formedness. -/
theorem stepRunsDecodedRequest : Obligations.StepRunsDecodedRequest :=
  fun s w _ hin => ⟨decode_wellFormed s.cfg (requestWires s.cfg w), step_of_inbox_request hin⟩

end Sys2Proof.Machine

/-!
PROOF. The state and what every step keeps (`10_state.md`): the life-cycle table (R21), the flags
(R22, R23), the invariants of section 5 (R25 to R28, R38), the single release of the storage (R30),
the reset values (R31), and that the slots holding no element cannot be observed (R32).
-/

namespace Sys2Proof.Machine

/-! ### Index arithmetic -/

theorem succ_mod_eq_ite {i c : Nat} (h : i < c) : (i + 1) % c = if i + 1 = c then 0 else i + 1 := by
  split
  · next hwrap => rw [hwrap, Nat.mod_self]
  · exact Nat.mod_eq_of_lt (by omega)

/-- `count` without the remainder: the distance from `r` forward to `w`, around the wrap (R65). -/
theorem occupancy_eq_ite {w r c : Nat} (hw : w < c) (hr : r < c) :
    occupancy w r c = if r ≤ w then w - r else w + c - r := by
  unfold occupancy
  split
  · next hle => rw [Nat.sub_add_comm hle, Nat.add_mod_right, Nat.mod_eq_of_lt (by omega)]
  · exact Nat.mod_eq_of_lt (by omega)

theorem occupancy_le {c : Nat} (w r : Nat) (hc : 0 < c) : occupancy w r c ≤ c - 1 :=
  Nat.le_sub_one_of_lt (Nat.mod_lt _ hc)

/-- Advancing the write index past a free slot adds one element (R65). -/
theorem occupancy_succ_widx {w r c : Nat} (hw : w < c) (hr : r < c) (hroom : (w + 1) % c ≠ r) :
    occupancy ((w + 1) % c) r c = occupancy w r c + 1 := by
  rw [occupancy_eq_ite (Nat.mod_lt _ (by omega)) hr, occupancy_eq_ite hw hr]
  rw [succ_mod_eq_ite hw] at hroom ⊢
  split_ifs at hroom ⊢ <;> omega

/-- Advancing the read index past an element removes one element (R65). -/
theorem occupancy_succ_ridx {w r c : Nat} (hw : w < c) (hr : r < c) (hne : w ≠ r) :
    occupancy w ((r + 1) % c) c + 1 = occupancy w r c := by
  rw [occupancy_eq_ite hw (Nat.mod_lt _ (by omega)), occupancy_eq_ite hw hr, succ_mod_eq_ite hr]
  split_ifs <;> omega

/-- `count` slots after the oldest element stands the write index (R65). -/
theorem add_occupancy_mod {w r c : Nat} (hw : w < c) (hr : r < c) :
    (r + occupancy w r c) % c = w := by
  calc (r + (w + c - r) % c) % c = (r + (w + c - r)) % c := Nat.add_mod_mod ..
    _ = (w + c) % c := by congr 1; omega
    _ = w := by rw [Nat.add_mod_right, Nat.mod_eq_of_lt hw]

/-! ### The block after a PUSH and after a POP -/

/-- The block after a successful PUSH of `e` (R76). -/
def Block.pushed (b : Block) (e : Elem) : Block :=
  { b with widx := (b.widx + 1) % b.cap, store := b.store.write b.widx e }

/-- The block after a successful POP (R79). -/
def Block.popped (b : Block) : Block := { b with ridx := (b.ridx + 1) % b.cap }

@[simp] theorem Block.pushed_phase (b : Block) (e : Elem) : (b.pushed e).phase = b.phase := rfl
@[simp] theorem Block.pushed_widx (b : Block) (e : Elem) :
    (b.pushed e).widx = (b.widx + 1) % b.cap := rfl
@[simp] theorem Block.pushed_ridx (b : Block) (e : Elem) : (b.pushed e).ridx = b.ridx := rfl
@[simp] theorem Block.pushed_cap (b : Block) (e : Elem) : (b.pushed e).cap = b.cap := rfl
@[simp] theorem Block.pushed_store (b : Block) (e : Elem) :
    (b.pushed e).store = b.store.write b.widx e := rfl

@[simp] theorem Block.popped_phase (b : Block) : b.popped.phase = b.phase := rfl
@[simp] theorem Block.popped_widx (b : Block) : b.popped.widx = b.widx := rfl
@[simp] theorem Block.popped_ridx (b : Block) : b.popped.ridx = (b.ridx + 1) % b.cap := rfl
@[simp] theorem Block.popped_cap (b : Block) : b.popped.cap = b.cap := rfl
@[simp] theorem Block.popped_store (b : Block) : b.popped.store = b.store := rfl

@[simp] theorem State.afterPush_blk (s : State) (e : Elem) :
    (s.afterPush e).blk = s.blk.pushed e := rfl
@[simp] theorem State.afterPop_blk (s : State) (e : Elem) :
    (s.afterPop e).blk = s.blk.popped := rfl

/-! ### The held slots -/

@[simp] theorem Block.heldSlot_pushed (b : Block) (e : Elem) (k : Nat) :
    (b.pushed e).heldSlot k = b.heldSlot k := rfl

/-- A POP renumbers the held slots: the second oldest becomes the oldest. -/
@[simp] theorem Block.heldSlot_popped (b : Block) (k : Nat) :
    b.popped.heldSlot k = b.heldSlot (k + 1) := by
  simp only [Block.heldSlot, Block.popped_ridx, Block.popped_cap, Nat.mod_add_mod]
  congr 1
  omega

theorem Block.heldSlot_zero {b : Block} (hr : b.ridx < b.cap) : b.heldSlot 0 = b.ridx :=
  Nat.mod_eq_of_lt hr

theorem Block.heldSlot_count {b : Block} (hw : b.widx < b.cap) (hr : b.ridx < b.cap) :
    b.heldSlot b.count = b.widx := add_occupancy_mod hw hr

theorem Block.count_pushed {b : Block} (e : Elem) (hw : b.widx < b.cap) (hr : b.ridx < b.cap)
    (hroom : (b.widx + 1) % b.cap ≠ b.ridx) : (b.pushed e).count = b.count + 1 :=
  occupancy_succ_widx hw hr hroom

theorem Block.count_popped {b : Block} (hw : b.widx < b.cap) (hr : b.ridx < b.cap)
    (hne : b.widx ≠ b.ridx) : b.popped.count + 1 = b.count :=
  occupancy_succ_ridx hw hr hne

/-- A slot held after a PUSH is the one just written or was held before. -/
theorem Block.held_of_held_pushed {b : Block} {e : Elem} {k : Nat} (hw : b.widx < b.cap)
    (hr : b.ridx < b.cap) (hroom : (b.widx + 1) % b.cap ≠ b.ridx)
    (hk : k < (b.pushed e).count) : b.heldSlot k = b.widx ∨ k < b.count := by
  rw [Block.count_pushed e hw hr hroom] at hk
  rcases Nat.lt_succ_iff_lt_or_eq.mp hk with hk | rfl
  · exact .inr hk
  · exact .inl (Block.heldSlot_count hw hr)

/-- The abstract contents of two blocks agree exactly when their held slots do (R88). -/
theorem Block.contents_eq_iff {b b' : Block} (hcount : b.count = b'.count) :
    b.contents = b'.contents ↔
      ∀ k < b.count, b.store.read (b.heldSlot k) = b'.store.read (b'.heldSlot k) := by
  simp only [Block.contents, ← hcount, List.map_inj_left, List.mem_range]

/-! ### The flags -/

theorem State.emptyOut_iff (s : State) : s.emptyOut = true ↔ s.blk.widx = s.blk.ridx := by
  simp [State.emptyOut, isEmpty_eq]

theorem State.fullOut_of_active {s : State} (hp : s.blk.phase = .active)
    (hw : s.blk.widx < s.blk.cap) :
    s.fullOut = true ↔ (s.blk.widx + 1) % s.blk.cap = s.blk.ridx := by
  simp [State.fullOut, hp, isFull_of_lt _ hw]

theorem State.fullOut_of_inactive {s : State} (hp : s.blk.phase ≠ .active) : s.fullOut = false := by
  simp [State.fullOut, hp]

/-! ### What each operation answers -/

theorem State.memRead_of_accessible {s : State} {i : Nat} {e : Elem} (h : s.SlotAccessible i)
    (hread : s.blk.store.read i = some e) : s.memRead i = .ok e :=
  State.memRead_ok_iff.mpr ⟨h, hread⟩

theorem State.memWrite_of_accessible {s : State} {i : Nat} (v : Elem) (h : s.SlotAccessible i) :
    s.memWrite i v = .ok (s.setSlot i v) :=
  State.memWrite_ok_iff.mpr ⟨h, rfl⟩

theorem execConstruct_of_not_uninit {s : State} (size : Nat) (hp : s.blk.phase ≠ .uninit) :
    execConstruct size s = .next (s.respond .badState none) := if_pos hp

theorem execConstruct_of_zero {s : State} (hp : s.blk.phase = .uninit) :
    execConstruct 0 s = .next (s.respond .badSize none) := by
  simp [execConstruct, hp]

theorem execConstruct_of_above_depth {s : State} {size : Nat} (hp : s.blk.phase = .uninit)
    (h0 : size ≠ 0) (hd : s.cfg.depth < size) :
    execConstruct size s = .next (s.respond .allocFail none) := by
  simp [execConstruct, hp, h0, hd]

theorem execConstruct_of_fits {s : State} {size : Nat} (hp : s.blk.phase = .uninit)
    (h1 : 1 ≤ size) (hd : size ≤ s.cfg.depth) :
    execConstruct size s = .next ((s.openBuffer size).respond .ok none) := by
  simp [execConstruct, hp, Nat.ne_of_gt h1, Nat.not_lt.mpr hd]

theorem execPush_of_inactive {s : State} (e : Elem) (hp : s.blk.phase ≠ .active) :
    execPush e s = .next (s.respond .badState none) := if_pos hp

theorem execPush_of_full {s : State} (e : Elem) (hp : s.blk.phase = .active)
    (hw : s.blk.widx < s.blk.cap) (hfull : (s.blk.widx + 1) % s.blk.cap = s.blk.ridx) :
    execPush e s = .next (s.respond .overflow none) := by
  simp [execPush, hp, advancedWidx, nextIndex_of_lt hw, hfull]

theorem execPush_of_room {s : State} (e : Elem) (hp : s.blk.phase = .active)
    (hw : s.blk.widx < s.blk.cap) (hd : s.blk.cap ≤ s.cfg.depth)
    (hroom : (s.blk.widx + 1) % s.blk.cap ≠ s.blk.ridx) :
    execPush e s = .next (s.afterPush e) := by
  have hacc : s.SlotAccessible s.blk.widx := ⟨hp, hw, by omega⟩
  simp [execPush, hp, advancedWidx, nextIndex_of_lt hw, hroom, pushSlot,
    State.memWrite_of_accessible e hacc]

theorem execPop_of_inactive {s : State} (hp : s.blk.phase ≠ .active) :
    execPop s = .next (s.respond .badState none) := if_pos hp

theorem execPop_of_empty {s : State} (hp : s.blk.phase = .active)
    (he : s.blk.widx = s.blk.ridx) : execPop s = .next (s.respond .underflow none) := by
  simp [execPop, hp, isEmpty_eq, he]

theorem execPop_of_held {s : State} {e : Elem} (hp : s.blk.phase = .active)
    (hne : s.blk.widx ≠ s.blk.ridx) (hr : s.blk.ridx < s.blk.cap)
    (hd : s.blk.cap ≤ s.cfg.depth) (hread : s.blk.store.read s.blk.ridx = some e) :
    execPop s = .next (s.afterPop e) := by
  have hacc : s.SlotAccessible s.blk.ridx := ⟨hp, hr, by omega⟩
  simp [execPop, hp, isEmpty_eq, hne, popSlot, State.memRead_of_accessible hacc hread,
    advancedRidx, nextIndex_of_lt hr]

theorem execTeardown_of_active {s : State} (hp : s.blk.phase = .active) :
    execTeardown s = .next (s.closeBuffer.respond .ok none) := if_pos hp

theorem execTeardown_of_inactive {s : State} (hp : s.blk.phase ≠ .active) :
    execTeardown s = .next (s.respond .ok none) := if_neg hp

/-- The frame part of `Answers` holds of every operation. -/
theorem answers_of_exec {i : Instr} {s t : State} {st : Status} (h : exec i s = .next t)
    (hst : t.status = some st) : Answers i s st t :=
  ⟨h, hst, exec_keeps_cfg_inbox h⟩

theorem step_of_inbox_idle {s : State} {w : Nat} {rest : List Input}
    (h : s.inbox = .idle w :: rest) : step s = .next (State.idleStep { s with inbox := rest }) := by
  simp only [step, poll, h]

theorem step_of_inbox_reset {s : State} {rest : List Input} (h : s.inbox = .reset :: rest) :
    step s = .next (State.resetStep { s with inbox := rest }) := by
  simp only [step, poll, h]

/-! ### What a step can do to the block -/

/-- Everything an operation can make of the block, with `DEPTH = depth`: the one case analysis all
invariants are derived from. -/
inductive BlockChange (depth : Nat) (b : Block) : Block → Prop where
  | unchanged : BlockChange depth b b
  | opened (size : Nat) (uninit : b.phase = .uninit) (pos : 1 ≤ size) (fits : size ≤ depth) :
    BlockChange depth b ⟨.active, 0, 0, size, Memory.unwritten⟩
  | pushed (e : Elem) (active : b.phase = .active) (widx_lt : b.widx < b.cap)
      (room : (b.widx + 1) % b.cap ≠ b.ridx) :
    BlockChange depth b (b.pushed e)
  | popped (active : b.phase = .active) (nonempty : b.widx ≠ b.ridx) (ridx_lt : b.ridx < b.cap) :
    BlockChange depth b b.popped
  | closed (active : b.phase = .active) :
    BlockChange depth b ⟨.torn, 0, 0, 0, Memory.unwritten⟩

theorem exec_changes_block {i : Instr} {s t : State} (h : exec i s = .next t) :
    BlockChange s.cfg.depth s.blk t.blk := by
  cases i with
  | construct size =>
    obtain ⟨_, rfl⟩ | ⟨_, _, rfl⟩ | ⟨_, _, _, rfl⟩ | ⟨hp, h1, hd, rfl⟩ := execConstruct_next h
    · exact .unchanged
    · exact .unchanged
    · exact .unchanged
    · exact .opened size hp h1 hd
  | push e =>
    obtain ⟨_, rfl⟩ | ⟨_, _, _, rfl⟩ | ⟨hp, hw, hroom, _, rfl⟩ := execPush_next h
    · exact .unchanged
    · exact .unchanged
    · exact .pushed e hp hw hroom
  | pop =>
    obtain ⟨_, rfl⟩ | ⟨_, _, rfl⟩ | ⟨_, hp, hne, hr, _, _, rfl⟩ := execPop_next h
    · exact .unchanged
    · exact .unchanged
    · exact .popped hp hne hr
  | teardown =>
    obtain ⟨hp, rfl⟩ | ⟨_, rfl⟩ := execTeardown_next h
    · exact .closed hp
    · exact .unchanged

/-- A step takes `rst` and resets the block, or changes it as an operation can. -/
theorem step_changes_block {s t : State} (h : step s = .next t) :
    (s.inbox.head? = some .reset ∧ t.blk = Block.reset) ∨ BlockChange s.cfg.depth s.blk t.blk := by
  obtain ⟨_, rfl⟩ | ⟨_, _, _, rfl⟩ | ⟨_, hin, rfl⟩ | ⟨_, rest, _, hexec⟩ := step_next h
  · exact .inr .unchanged
  · exact .inr .unchanged
  · exact .inl ⟨by rw [hin]; rfl, rfl⟩
  · exact .inr (exec_changes_block (s := { s with inbox := rest }) hexec)

/-- What holds of the reset block and survives every change survives every step. -/
theorem step_keeps_of_block {P : Block → Prop} {s t : State} (hreset : P Block.reset)
    (hchange : ∀ {b b'}, BlockChange s.cfg.depth b b' → P b → P b')
    (h : step s = .next t) (hs : P s.blk) : P t.blk := by
  obtain ⟨_, hblk⟩ | hc := step_changes_block h
  · rwa [hblk]
  · exact hchange hc hs

/-! ### The parts of the invariant -/

namespace BlockChange

variable {depth : Nat} {b b' : Block}

theorem canonical (h : BlockChange depth b b') (hb : b.store.Wf) : b'.store.Wf := by
  cases h with
  | unchanged => exact hb
  | opened => exact Memory.wf_unwritten
  | pushed e => exact Memory.wf_write hb b.widx e
  | popped => exact hb
  | closed => exact Memory.wf_unwritten

theorem indicesInRange (h : BlockChange depth b b') (hb : b.IndicesInRange) :
    b'.IndicesInRange := by
  intro hp'
  cases h with
  | unchanged => exact hb hp'
  | opened size _ hpos _ => exact ⟨hpos, hpos⟩
  | pushed e hp =>
    obtain ⟨hw, hr⟩ := hb hp
    exact ⟨Nat.mod_lt _ (Nat.zero_lt_of_lt hw), hr⟩
  | popped hp =>
    obtain ⟨hw, hr⟩ := hb hp
    exact ⟨hw, Nat.mod_lt _ (Nat.zero_lt_of_lt hr)⟩
  | closed => cases hp'

theorem capInRange (h : BlockChange depth b b')
    (hb : b.phase = .active → 1 ≤ b.cap ∧ b.cap ≤ depth) :
    b'.phase = .active → 1 ≤ b'.cap ∧ b'.cap ≤ depth := by
  intro hp'
  cases h with
  | unchanged => exact hb hp'
  | opened size _ hpos hfits => exact ⟨hpos, hfits⟩
  | pushed e hp => exact hb hp
  | popped hp => exact hb hp
  | closed => cases hp'

/-- Only CONSTRUCT and TEARDOWN write `CAP`, and neither goes from ACTIVE to ACTIVE. -/
theorem cap_eq_of_active (h : BlockChange depth b b') (hp : b.phase = .active)
    (hp' : b'.phase = .active) : b'.cap = b.cap := by
  cases h with
  | unchanged => rfl
  | opened size huninit => simp [hp] at huninit
  | pushed e => rfl
  | popped => rfl
  | closed => cases hp'

theorem clearedWhenInactive (h : BlockChange depth b b') (hb : b.ClearedWhenInactive) :
    b'.ClearedWhenInactive := by
  intro hp'
  cases h with
  | unchanged => exact hb hp'
  | opened => exact absurd rfl hp'
  | pushed e hp => exact absurd hp hp'
  | popped hp => exact absurd hp hp'
  | closed => exact ⟨rfl, rfl, rfl, rfl⟩

/-- PUSH writes the slot it adds to the held ones; POP only lets one go (R28). -/
theorem heldSlotsWritten (h : BlockChange depth b b') (hrange : b.IndicesInRange)
    (hb : b.HeldSlotsWritten) : b'.HeldSlotsWritten := by
  intro hp' k hk
  cases h with
  | unchanged => exact hb hp' k hk
  | opened size => simp [Block.count, occupancy] at hk
  | pushed e hp hw hroom =>
    obtain ⟨_, hr⟩ := hrange hp
    rw [Block.heldSlot_pushed, Block.pushed_store]
    by_cases hslot : b.heldSlot k = b.widx
    · simp [hslot]
    · rw [Memory.read_write_other _ _ _ _ hslot]
      exact hb hp k ((Block.held_of_held_pushed hw hr hroom hk).resolve_left hslot)
  | popped hp hne hr =>
    obtain ⟨hw, _⟩ := hrange hp
    have hcount := Block.count_popped hw hr hne
    rw [Block.heldSlot_popped, Block.popped_store]
    exact hb hp (k + 1) (by omega)
  | closed => cases hp'

theorem writtenSlotsBelowCap (h : BlockChange depth b b') (hb : b.WrittenSlotsBelowCap) :
    b'.WrittenSlotsBelowCap := by
  intro hp' c hc
  cases h with
  | unchanged => exact hb hp' c hc
  | opened => cases hc
  | pushed e hp hw =>
    obtain rfl | hold := Memory.mem_write hc
    · exact hw
    · exact hb hp c hold
  | popped hp => exact hb hp c hc
  | closed => cases hp'

/-- No operation leaves the TORN phase (R95). -/
theorem torn (h : BlockChange depth b b') (hb : b.phase = .torn) : b'.phase = .torn := by
  cases h with
  | unchanged => exact hb
  | opened size huninit => simp [hb] at huninit
  | pushed e hp => simp [hb] at hp
  | popped hp => simp [hb] at hp
  | closed hp => rfl

end BlockChange

/-! ### The reset state and the invariant -/

theorem Block.reset_indicesInRange : Block.reset.IndicesInRange := nofun

theorem Block.reset_clearedWhenInactive : Block.reset.ClearedWhenInactive :=
  fun _ => ⟨rfl, rfl, rfl, rfl⟩

/-- The reset block meets the invariant in every legal configuration (R31). -/
theorem State.Inv.of_blk_reset {s : State} (hlegal : s.cfg.Legal) (hblk : s.blk = Block.reset) :
    s.Inv where
  legal := hlegal
  canonical := hblk ▸ Memory.wf_unwritten
  indices := hblk ▸ Block.reset_indicesInRange
  capacity := fun hp => by simp [hblk] at hp
  cleared := hblk ▸ Block.reset_clearedWhenInactive
  held := fun hp => by simp [hblk] at hp
  below := fun hp => by simp [hblk] at hp

theorem State.Inv.of_blockChange {s t : State} (hs : s.Inv) (hcfg : t.cfg = s.cfg)
    (h : BlockChange s.cfg.depth s.blk t.blk) : t.Inv where
  legal := hcfg ▸ hs.legal
  canonical := h.canonical hs.canonical
  indices := h.indicesInRange hs.indices
  capacity := by
    have hcap := h.capInRange hs.capacity
    rwa [← hcfg] at hcap
  cleared := h.clearedWhenInactive hs.cleared
  held := h.heldSlotsWritten hs.indices hs.held
  below := h.writtenSlotsBelowCap hs.below

theorem step_keeps_inv {s t : State} (hs : s.Inv) (h : step s = .next t) : t.Inv := by
  obtain ⟨hcfg, _⟩ := step_keeps_cfg_takes_input h
  obtain ⟨_, hblk⟩ | hc := step_changes_block h
  · exact .of_blk_reset (hcfg ▸ hs.legal) hblk
  · exact hs.of_blockChange hcfg hc

/-- The invariant does not speak of the inputs to come. -/
theorem State.Inv.withInbox {s : State} (h : s.Inv) (inputs : List Input) :
    State.Inv { s with inbox := inputs } :=
  ⟨h.legal, h.canonical, h.indices, h.capacity, h.cleared, h.held, h.below⟩

theorem startOf_inv {cfg : Config} (h : cfg.Legal) (inputs : List Input) :
    (startOf cfg inputs).Inv := .of_blk_reset h rfl

/-- What every step keeps holds at the end of every run. -/
theorem run_keeps {P : State → Prop} (hstep : ∀ {s t}, P s → step s = .next t → P t)
    {n : Nat} {s t : State} (hs : P s) (h : Sys2Proof.core.run n s = .next t) : P t := by
  induction n generalizing s with
  | zero => cases h; exact hs
  | succ n ih =>
    simp only [Host.Core.run] at h
    split at h
    · next u hu => exact ih (hstep hs hu) h
    · cases h
    · cases h

/-! ### The life-cycle table -/

/-- The operation answers the status and leaves the phase of its row of R21. -/
def FollowsRow (i : Instr) (s : State) : Prop :=
  ∃ t, Answers i s (lifecycleRow s.cfg s.blk i).2 t ∧
    t.blk.phase = (lifecycleRow s.cfg s.blk i).1

theorem FollowsRow.of_exec {i : Instr} {s t : State} {st : Status} (h : exec i s = .next t)
    (hst : t.status = some st) (hrow : lifecycleRow s.cfg s.blk i = (t.blk.phase, st)) :
    FollowsRow i s :=
  ⟨t, by rw [hrow]; exact answers_of_exec h hst, by rw [hrow]⟩

theorem construct_followsRow (size : Nat) (s : State) : FollowsRow (.construct size) s := by
  cases hp : s.blk.phase with
  | uninit =>
    rcases Nat.eq_zero_or_pos size with rfl | hpos
    · exact .of_exec (execConstruct_of_zero hp) rfl (by simp [lifecycleRow, hp])
    · by_cases hd : size ≤ s.cfg.depth
      · exact .of_exec (execConstruct_of_fits hp hpos hd) rfl
          (by simp [lifecycleRow, hp, hd, Nat.one_le_iff_ne_zero.mp hpos])
      · have h0 : size ≠ 0 := Nat.ne_of_gt hpos
        exact .of_exec (execConstruct_of_above_depth hp h0 (Nat.lt_of_not_le hd)) rfl
          (by simp [lifecycleRow, hp, hd, h0])
  | active | torn =>
    exact .of_exec (execConstruct_of_not_uninit size (by simp [hp])) rfl
      (by simp [lifecycleRow, hp])

theorem push_followsRow {s : State} (hs : s.Inv) (e : Elem) : FollowsRow (.push e) s := by
  cases hp : s.blk.phase with
  | uninit | torn =>
    exact .of_exec (execPush_of_inactive e (by simp [hp])) rfl (by simp [lifecycleRow, hp])
  | active =>
    obtain ⟨hw, _⟩ := hs.indices hp
    obtain ⟨_, hd⟩ := hs.capacity hp
    by_cases hfull : (s.blk.widx + 1) % s.blk.cap = s.blk.ridx
    · exact .of_exec (execPush_of_full e hp hw hfull) rfl
        (by simp [lifecycleRow, hp, isFull_of_lt _ hw, hfull])
    · exact .of_exec (execPush_of_room e hp hw hd hfull) rfl
        (by simp [lifecycleRow, hp, isFull_of_lt _ hw, hfull])

/-- The slot a successful POP reads is the oldest held one, so it is written (R28). -/
theorem State.Inv.read_ridx {s : State} (hs : s.Inv) (hp : s.blk.phase = .active)
    (hne : s.blk.widx ≠ s.blk.ridx) : ∃ e, s.blk.store.read s.blk.ridx = some e := by
  obtain ⟨hw, hr⟩ := hs.indices hp
  have hcount := Block.count_popped hw hr hne
  have hwritten := hs.held hp 0 (by omega)
  rw [Block.heldSlot_zero hr] at hwritten
  exact Option.isSome_iff_exists.mp hwritten

theorem pop_followsRow {s : State} (hs : s.Inv) : FollowsRow .pop s := by
  cases hp : s.blk.phase with
  | uninit | torn =>
    exact .of_exec (execPop_of_inactive (by simp [hp])) rfl (by simp [lifecycleRow, hp])
  | active =>
    obtain ⟨_, hr⟩ := hs.indices hp
    obtain ⟨_, hd⟩ := hs.capacity hp
    by_cases he : s.blk.widx = s.blk.ridx
    · exact .of_exec (execPop_of_empty hp he) rfl (by simp [lifecycleRow, hp, isEmpty_eq, he])
    · obtain ⟨e, hread⟩ := hs.read_ridx hp he
      exact .of_exec (execPop_of_held hp he hr hd hread) rfl
        (by simp [lifecycleRow, hp, isEmpty_eq, he])

theorem teardown_followsRow (s : State) : FollowsRow .teardown s := by
  cases hp : s.blk.phase with
  | uninit | torn =>
    exact .of_exec (execTeardown_of_inactive (by simp [hp])) rfl (by simp [lifecycleRow, hp])
  | active => exact .of_exec (execTeardown_of_active hp) rfl (by simp [lifecycleRow, hp])

theorem exec_followsRow {s : State} (hs : s.Inv) (i : Instr) : FollowsRow i s := by
  cases i with
  | construct size => exact construct_followsRow size s
  | push e => exact push_followsRow hs e
  | pop => exact pop_followsRow hs
  | teardown => exact teardown_followsRow s

/-- In every state of the invariant every step completes (R39). -/
theorem step_completes {s : State} (hs : s.Inv) : ∃ t, step s = .next t := by
  cases hin : s.inbox with
  | nil => exact ⟨_, step_of_inbox_nil hin⟩
  | cons input rest =>
    cases input with
    | reset => exact ⟨_, step_of_inbox_reset hin⟩
    | idle w => exact ⟨_, step_of_inbox_idle hin⟩
    | request w =>
      obtain ⟨t, ⟨hexec, _⟩, _⟩ := exec_followsRow (hs.withInbox rest) (decodeRequest s.cfg w)
      exact ⟨t, (step_of_inbox_request hin).trans hexec⟩

/-! ### The release of the storage -/

/-- None of the next `n` inputs is `rst`. -/
def State.NoResetWithin (n : Nat) (s : State) : Prop := ∀ e ∈ s.inbox.take n, e ≠ .reset

/-- Without `rst` a step changes the block as an operation can, and there is still none to come. -/
theorem State.NoResetWithin.step {n : Nat} {s t : State} (hs : s.NoResetWithin (n + 1))
    (h : step s = .next t) :
    BlockChange s.cfg.depth s.blk t.blk ∧ t.NoResetWithin n := by
  obtain ⟨_, htail⟩ := step_keeps_cfg_takes_input h
  unfold State.NoResetWithin at *
  rw [htail]
  cases hin : s.inbox with
  | nil =>
    refine ⟨(step_changes_block h).resolve_left fun hrst => ?_, by simp⟩
    simp [hin] at hrst
  | cons input rest =>
    simp only [hin, List.take_succ_cons, List.forall_mem_cons] at hs
    obtain ⟨hinput, hrest⟩ := hs
    refine ⟨(step_changes_block h).resolve_left fun hrst => hinput ?_, hrest⟩
    simpa [hin] using hrst.1

theorem releases_succ_of_next {n : Nat} {s t : State} (h : step s = .next t) :
    releases (n + 1) s =
      (if s.blk.phase = .active ∧ t.blk.phase = .torn then 1 else 0) + releases n t := by
  simp only [releases, h]

theorem releases_succ_of_stop {n : Nat} {s : State} (h : ∀ t, step s ≠ .next t) :
    releases (n + 1) s = 0 := by
  cases hstep : step s with
  | next t => exact absurd hstep (h t)
  | fault r => simp only [releases, hstep]
  | refused r => simp only [releases, hstep]

/-- A TORN block has nothing to release until `rst` (R95). -/
theorem releases_of_torn {n : Nat} {s : State} (hn : s.NoResetWithin n)
    (hp : s.blk.phase = .torn) : releases n s = 0 := by
  induction n generalizing s with
  | zero => rfl
  | succ n ih =>
    by_cases hstep : ∃ t, step s = .next t
    · obtain ⟨t, ht⟩ := hstep
      obtain ⟨hc, hn'⟩ := hn.step ht
      rw [releases_succ_of_next ht, ih hn' (hc.torn hp)]
      simp [hp]
    · exact releases_succ_of_stop (not_exists.mp hstep)

theorem releases_le_one {n : Nat} {s : State} (hn : s.NoResetWithin n) : releases n s ≤ 1 := by
  induction n generalizing s with
  | zero => exact Nat.zero_le 1
  | succ n ih =>
    by_cases hstep : ∃ t, step s = .next t
    · obtain ⟨t, ht⟩ := hstep
      obtain ⟨_, hn'⟩ := hn.step ht
      rw [releases_succ_of_next ht]
      split
      · next hrelease => rw [releases_of_torn hn' hrelease.2]
      · rw [Nat.zero_add]; exact ih hn'
    · exact (releases_succ_of_stop (not_exists.mp hstep)).trans_le (Nat.zero_le 1)

/-! ### States the requester cannot tell apart -/

namespace SameToRequester

variable {s t : State}

theorem of_blk_eq (hcfg : s.cfg = t.cfg) (hinbox : s.inbox = t.inbox) (hblk : s.blk = t.blk) :
    SameToRequester s t :=
  ⟨hcfg, hinbox, by rw [hblk], by rw [hblk], by rw [hblk], by rw [hblk], fun _ => by rw [hblk]⟩

theorem withInbox (h : SameToRequester s t) (inputs : List Input) :
    SameToRequester { s with inbox := inputs } { t with inbox := inputs } :=
  ⟨h.cfg, rfl, h.phase, h.widx, h.ridx, h.cap, h.contents⟩

theorem showResponse (h : SameToRequester s t) (r : Option Response) :
    SameToRequester (s.showResponse r) (t.showResponse r) :=
  ⟨h.cfg, h.inbox, h.phase, h.widx, h.ridx, h.cap, h.contents⟩

theorem count (h : SameToRequester s t) : s.blk.count = t.blk.count := by
  simp only [Block.count, h.widx, h.ridx, h.cap]

theorem heldSlot (h : SameToRequester s t) (k : Nat) : s.blk.heldSlot k = t.blk.heldSlot k := by
  simp only [Block.heldSlot, h.ridx, h.cap]

/-- The held elements are the same in both. -/
theorem read_heldSlot (h : SameToRequester s t) (hp : s.blk.phase = .active) {k : Nat}
    (hk : k < s.blk.count) :
    s.blk.store.read (s.blk.heldSlot k) = t.blk.store.read (t.blk.heldSlot k) :=
  (Block.contents_eq_iff h.count).mp (h.contents hp) k hk

theorem emptyOut (h : SameToRequester s t) : s.emptyOut = t.emptyOut := by
  simp only [State.emptyOut, h.widx, h.ridx]

theorem fullOut (h : SameToRequester s t) : s.fullOut = t.fullOut := by
  simp only [State.fullOut, h.phase, h.widx, h.ridx, h.cap]

/-- A PUSH of the same element: the slot written holds it in both, and every other held slot was
held before. -/
theorem afterPush (h : SameToRequester s t) (e : Elem) (hp : s.blk.phase = .active)
    (hw : s.blk.widx < s.blk.cap) (hr : s.blk.ridx < s.blk.cap)
    (hroom : (s.blk.widx + 1) % s.blk.cap ≠ s.blk.ridx) :
    SameToRequester (s.afterPush e) (t.afterPush e) where
  cfg := h.cfg
  inbox := h.inbox
  phase := h.phase
  widx := by simp [h.widx, h.cap]
  ridx := h.ridx
  cap := h.cap
  contents := fun _ => by
    have hcount : (s.blk.pushed e).count = (t.blk.pushed e).count := by
      simp [Block.count, h.widx, h.ridx, h.cap]
    refine (Block.contents_eq_iff hcount).mpr fun k hk => ?_
    rw [Block.heldSlot_pushed, Block.heldSlot_pushed, Block.pushed_store, Block.pushed_store,
      ← h.heldSlot, ← h.widx]
    by_cases hslot : s.blk.heldSlot k = s.blk.widx
    · simp [hslot]
    · have hheld := (Block.held_of_held_pushed hw hr hroom hk).resolve_left hslot
      rw [Memory.read_write_other _ _ _ _ hslot, Memory.read_write_other _ _ _ _ hslot,
        h.read_heldSlot hp hheld, h.heldSlot]

/-- A POP: every slot still held was held before. -/
theorem afterPop (h : SameToRequester s t) (e : Elem) (hp : s.blk.phase = .active)
    (hw : s.blk.widx < s.blk.cap) (hr : s.blk.ridx < s.blk.cap)
    (hne : s.blk.widx ≠ s.blk.ridx) : SameToRequester (s.afterPop e) (t.afterPop e) where
  cfg := h.cfg
  inbox := h.inbox
  phase := h.phase
  widx := h.widx
  ridx := by simp [h.ridx, h.cap]
  cap := h.cap
  contents := fun _ => by
    have hcount : s.blk.popped.count = t.blk.popped.count := by
      simp [Block.count, h.widx, h.ridx, h.cap]
    refine (Block.contents_eq_iff hcount).mpr fun k hk => ?_
    have hless := Block.count_popped hw hr hne
    rw [Block.heldSlot_popped, Block.heldSlot_popped]
    exact h.read_heldSlot hp (k := k + 1) (hless ▸ Nat.succ_lt_succ hk)

end SameToRequester

/-- Two outcomes the requester cannot tell apart: next states with the same response, which it
cannot tell apart either. -/
def AnswerAlike (o o' : Host.Outcome State Fault Refusal) : Prop :=
  ∃ s' t', o = .next s' ∧ o' = .next t' ∧ s'.resp = t'.resp ∧ SameToRequester s' t'

theorem SameToRequester.answerAlike {s t : State} (h : SameToRequester s t)
    (r : Option Response) :
    AnswerAlike (.next (s.showResponse r)) (.next (t.showResponse r)) :=
  ⟨_, _, rfl, rfl, rfl, h.showResponse r⟩

section

variable {s t : State} (hs : s.Inv) (ht : t.Inv) (h : SameToRequester s t)

include h in
theorem execConstruct_answerAlike (size : Nat) :
    AnswerAlike (execConstruct size s) (execConstruct size t) := by
  by_cases hp : s.blk.phase = .uninit
  · have hpt : t.blk.phase = .uninit := h.phase ▸ hp
    rcases Nat.eq_zero_or_pos size with rfl | hpos
    · rw [execConstruct_of_zero hp, execConstruct_of_zero hpt]
      exact h.answerAlike _
    · by_cases hd : size ≤ s.cfg.depth
      · rw [execConstruct_of_fits hp hpos hd, execConstruct_of_fits hpt hpos (h.cfg ▸ hd)]
        have hopen : SameToRequester (s.openBuffer size) (t.openBuffer size) :=
          .of_blk_eq h.cfg h.inbox rfl
        exact hopen.answerAlike _
      · have hd := Nat.lt_of_not_le hd
        rw [execConstruct_of_above_depth hp hpos.ne' hd,
          execConstruct_of_above_depth hpt hpos.ne' (h.cfg ▸ hd)]
        exact h.answerAlike _
  · rw [execConstruct_of_not_uninit size hp, execConstruct_of_not_uninit size (h.phase ▸ hp)]
    exact h.answerAlike _

include hs ht h in
theorem execPush_answerAlike (e : Elem) : AnswerAlike (execPush e s) (execPush e t) := by
  by_cases hp : s.blk.phase = .active
  · have hpt : t.blk.phase = .active := h.phase ▸ hp
    obtain ⟨hw, hr⟩ := hs.indices hp
    obtain ⟨hwt, _⟩ := ht.indices hpt
    by_cases hfull : (s.blk.widx + 1) % s.blk.cap = s.blk.ridx
    · have hfullt : (t.blk.widx + 1) % t.blk.cap = t.blk.ridx := by
        rwa [← h.widx, ← h.cap, ← h.ridx]
      rw [execPush_of_full e hp hw hfull, execPush_of_full e hpt hwt hfullt]
      exact h.answerAlike _
    · have hroomt : (t.blk.widx + 1) % t.blk.cap ≠ t.blk.ridx := by
        rwa [← h.widx, ← h.cap, ← h.ridx]
      rw [execPush_of_room e hp hw (hs.capacity hp).2 hfull,
        execPush_of_room e hpt hwt (ht.capacity hpt).2 hroomt]
      exact ⟨_, _, rfl, rfl, rfl, h.afterPush e hp hw hr hfull⟩
  · rw [execPush_of_inactive e hp, execPush_of_inactive e (h.phase ▸ hp)]
    exact h.answerAlike _

include hs ht h in
theorem execPop_answerAlike : AnswerAlike (execPop s) (execPop t) := by
  by_cases hp : s.blk.phase = .active
  · have hpt : t.blk.phase = .active := h.phase ▸ hp
    obtain ⟨hw, hr⟩ := hs.indices hp
    obtain ⟨_, hrt⟩ := ht.indices hpt
    by_cases he : s.blk.widx = s.blk.ridx
    · have het : t.blk.widx = t.blk.ridx := by rwa [← h.widx, ← h.ridx]
      rw [execPop_of_empty hp he, execPop_of_empty hpt het]
      exact h.answerAlike _
    · have hnet : t.blk.widx ≠ t.blk.ridx := by rwa [← h.widx, ← h.ridx]
      obtain ⟨e, hread⟩ := hs.read_ridx hp he
      have hcount := Block.count_popped hw hr he
      have hreadt : t.blk.store.read t.blk.ridx = some e := by
        have hsame := h.read_heldSlot hp (k := 0) (by omega)
        rwa [Block.heldSlot_zero hr, Block.heldSlot_zero hrt, hread, eq_comm] at hsame
      rw [execPop_of_held hp he hr (hs.capacity hp).2 hread,
        execPop_of_held hpt hnet hrt (ht.capacity hpt).2 hreadt]
      exact ⟨_, _, rfl, rfl, rfl, h.afterPop e hp hw hr he⟩
  · rw [execPop_of_inactive hp, execPop_of_inactive (h.phase ▸ hp)]
    exact h.answerAlike _

include h in
theorem execTeardown_answerAlike : AnswerAlike (execTeardown s) (execTeardown t) := by
  by_cases hp : s.blk.phase = .active
  · rw [execTeardown_of_active hp, execTeardown_of_active (h.phase ▸ hp)]
    have hclose : SameToRequester s.closeBuffer t.closeBuffer := .of_blk_eq h.cfg h.inbox rfl
    exact hclose.answerAlike _
  · rw [execTeardown_of_inactive hp, execTeardown_of_inactive (h.phase ▸ hp)]
    exact h.answerAlike _

include hs ht h in
theorem exec_answerAlike (i : Instr) : AnswerAlike (exec i s) (exec i t) := by
  cases i with
  | construct size => exact execConstruct_answerAlike h size
  | push e => exact execPush_answerAlike hs ht h e
  | pop => exact execPop_answerAlike hs ht h
  | teardown => exact execTeardown_answerAlike h

include hs ht h in
theorem step_answerAlike : AnswerAlike (step s) (step t) := by
  cases hin : s.inbox with
  | nil =>
    rw [step_of_inbox_nil hin, step_of_inbox_nil (h.inbox ▸ hin)]
    exact h.answerAlike none
  | cons input rest =>
    have hrest := h.withInbox rest
    cases input with
    | reset =>
      rw [step_of_inbox_reset hin, step_of_inbox_reset (h.inbox ▸ hin)]
      have hreset : SameToRequester (State.resetBlock { s with inbox := rest })
          (State.resetBlock { t with inbox := rest }) := .of_blk_eq h.cfg rfl rfl
      exact hreset.answerAlike none
    | idle w =>
      rw [step_of_inbox_idle hin, step_of_inbox_idle (h.inbox ▸ hin)]
      exact hrest.answerAlike none
    | request w =>
      have hop : decodeRequest s.cfg w = decodeRequest t.cfg w := by rw [h.cfg]
      rw [step_of_inbox_request hin, step_of_inbox_request (h.inbox ▸ hin), ← hop]
      exact exec_answerAlike (hs.withInbox rest) (ht.withInbox rest) hrest _

end

theorem responses_succ_of_next {n : Nat} {s t : State} (h : step s = .next t) :
    responses (n + 1) s = t.resp.toList ++ responses n t := by
  simp only [responses, h]

theorem responses_eq_of_sameToRequester {n : Nat} {s t : State} (hs : s.Inv) (ht : t.Inv)
    (h : SameToRequester s t) : responses n s = responses n t := by
  induction n generalizing s t with
  | zero => rfl
  | succ n ih =>
    obtain ⟨s', t', hs', ht', hresp, hsame⟩ := step_answerAlike hs ht h
    rw [responses_succ_of_next hs', responses_succ_of_next ht', hresp,
      ih (step_keeps_inv hs hs') (step_keeps_inv ht ht') hsame]

/-! ### The obligations -/

/-- Settles O23: a step resets the block or changes it as an operation can, and each part of the
invariant survives each such change. -/
theorem everyStepKeepsInvariant : Obligations.EveryStepKeepsInvariant :=
  fun _ _ hs h => step_keeps_inv hs h

/-- Settles O47: every test an operation makes reads what the two states share, and the element a
POP returns stands in a held slot. -/
theorem everyStepKeepsStatesIndistinguishable :
    Obligations.EveryStepKeepsStatesIndistinguishable := by
  intro s t hs ht h
  obtain ⟨s', t', hs', ht', hresp, hsame⟩ := step_answerAlike hs ht h
  exact ⟨s', t', hs', ht', hresp, hsame, hsame.emptyOut, hsame.fullOut⟩

/-- Settles O17: the step that releases the storage leaves TORN, and from TORN nothing more is
released without `rst`. -/
theorem storageReleasedAtMostOnce : Obligations.StorageReleasedAtMostOnce :=
  fun _ _ hn => releases_le_one hn

/-- Settles O24: CONSTRUCT sets both indices to 0, and PUSH and POP reduce theirs modulo `CAP`. -/
theorem indicesStayInRange : Obligations.IndicesStayInRange :=
  ⟨fun _ => Block.reset_indicesInRange,
    fun _ _ hs h => step_keeps_of_block Block.reset_indicesInRange BlockChange.indicesInRange h hs⟩

/-- Settles O25: CONSTRUCT, the only operation that makes a block ACTIVE, tests the bounds. -/
theorem capacityStaysFixedWhileActive : Obligations.CapacityStaysFixedWhileActive := by
  refine ⟨fun _ => nofun, fun s t hs h => ?bounds, fun s t h hp hp' => ?fixed⟩
  case bounds =>
    obtain ⟨hcfg, _⟩ := step_keeps_cfg_takes_input h
    unfold State.CapInRange
    rw [hcfg]
    exact step_keeps_of_block nofun BlockChange.capInRange h hs
  case fixed =>
    obtain ⟨_, hblk⟩ | hc := step_changes_block h
    · simp [hblk] at hp'
    · exact hc.cap_eq_of_active hp hp'

/-- Settles O26: the steps that leave the ACTIVE phase clear the block. -/
theorem inactiveStateStaysCleared : Obligations.InactiveStateStaysCleared :=
  ⟨fun _ => Block.reset_clearedWhenInactive,
    fun _ _ hs h =>
      step_keeps_of_block Block.reset_clearedWhenInactive BlockChange.clearedWhenInactive h hs⟩

/-- Settles O27: the invariant holds along the run, and under it every step completes. -/
theorem heldSlotsAreWrittenOnEveryRun : Obligations.HeldSlotsAreWrittenOnEveryRun := by
  intro cfg inputs n t hlegal hrun
  have ht : t.Inv := run_keeps step_keeps_inv (startOf_inv hlegal inputs) hrun
  refine ⟨fun hp => ⟨?bound, fun k hk => ?written⟩, fun i hfault => ?nofault⟩
  case bound => exact occupancy_le _ _ (ht.capacity hp).1
  case written => exact Option.isSome_iff_exists.mp (ht.held hp k hk)
  case nofault =>
    obtain ⟨u, hu⟩ := step_completes ht
    cases hu.symm.trans hfault

/-- Settles O29: one lemma for each operation's rows, and the two steps that run no operation. -/
theorem lifecycleTableIsFollowed : Obligations.LifecycleTableIsFollowed :=
  fun _ hs => ⟨exec_followsRow hs,
    fun _ => ⟨_, step_of_inbox_reset rfl, rfl, rfl⟩,
    fun _ _ => ⟨_, step_of_inbox_idle rfl, rfl⟩⟩

/-- Settles O37, by induction on the number of steps with the step lemma of O47. -/
theorem staleSlotsAreUnobservable : Obligations.StaleSlotsAreUnobservable :=
  fun _ _ _ hs ht h => ⟨responses_eq_of_sameToRequester hs ht h, h.emptyOut, h.fullOut⟩

/-- Settles O20: the reset arm of a step, and the fields of the reset block. -/
theorem resetInputGivesResetState : Obligations.ResetInputGivesResetState :=
  ⟨fun _ _ => ⟨_, step_of_inbox_reset rfl, rfl, rfl, rfl, rfl, Memory.read_unwritten,
      (State.emptyOut_iff _).mpr rfl, State.fullOut_of_inactive nofun, rfl, rfl⟩,
    fun _ => ⟨rfl, rfl, rfl, rfl, Memory.read_unwritten, (State.emptyOut_iff _).mpr rfl,
      State.fullOut_of_inactive nofun⟩⟩

/-- Settles O22: the reset block meets the invariant, and the reference configuration is legal. -/
theorem resetStateMeetsInvariant : Obligations.ResetStateMeetsInvariant :=
  ⟨fun _ hlegal => .of_blk_reset hlegal rfl, rfl, .of_blk_reset (by decide) rfl⟩

/-- Settles O39: the comparator of R62, and 0 = 0 in a cleared block. -/
theorem emptyOutputShowsEqualIndices : Obligations.EmptyOutputShowsEqualIndices := by
  refine ⟨State.emptyOut_iff, fun s hcleared hp => ?cleared,
    fun _ => (State.emptyOut_iff _).mpr rfl⟩
  case cleared =>
    obtain ⟨hw, hr, _⟩ := hcleared hp
    exact ⟨s.emptyOut_iff.mpr (hw.trans hr.symm), _,
      answers_of_exec (execPop_of_inactive hp) rfl, rfl⟩

/-- Settles O40: with `CAP = 1` both indices are 0, and so is the next write index. -/
theorem fullOutputShowsFullBuffer : Obligations.FullOutputShowsFullBuffer := by
  refine ⟨fun _ => State.fullOut_of_active, fun _ => State.fullOut_of_inactive,
    fun _ => State.fullOut_of_inactive nofun, fun s hp hcap hw hr => ?capOne⟩
  case capOne =>
    refine ⟨s.emptyOut_iff.mpr (by omega), (State.fullOut_of_active hp (by omega)).mpr ?_⟩
    rw [hcap, Nat.mod_one]
    omega

end Sys2Proof.Machine

/-!
PROOF. The memory (`20_memory.md`): what the two primitives of R34 answer under their requirement and
outside it, the frame of PUSH and POP (R37), and that no run reaches a model fault (R39).
-/

namespace Sys2Proof.Machine

/-! ### The memory primitives -/

/-- The requirement of R34 implies R38's where `CAP <= DEPTH` (R26). -/
theorem State.slotAccessible_iff {s : State} (hd : s.blk.cap ≤ s.cfg.depth) (i : Nat) :
    s.SlotAccessible i ↔ s.blk.phase = .active ∧ i < s.blk.cap :=
  ⟨fun ⟨hp, hi, _⟩ => ⟨hp, hi⟩, fun ⟨hp, hi⟩ => ⟨hp, hi, Nat.lt_of_lt_of_le hi hd⟩⟩

theorem State.memRead_of_unwritten {s : State} {i : Nat} (h : s.SlotAccessible i)
    (hread : s.blk.store.read i = none) : s.memRead i = .error (.unwrittenSlot i) := by
  simp only [State.memRead, if_pos h, hread]

theorem State.memRead_of_not_accessible {s : State} {i : Nat} (h : ¬ s.SlotAccessible i) :
    s.memRead i = .error (.indexOutOfRange i) := if_neg h

theorem State.memWrite_of_not_accessible {s : State} {i : Nat} (v : Elem)
    (h : ¬ s.SlotAccessible i) : s.memWrite i v = .error (.indexOutOfRange i) := if_neg h

/-! ### What PUSH and POP make of the block -/

theorem exec_push_blk {e : Elem} {s t : State} (h : exec (.push e) s = .next t) :
    t.blk = s.blk ∨ t.blk = s.blk.pushed e := by
  obtain ⟨_, rfl⟩ | ⟨_, _, _, rfl⟩ | ⟨_, _, _, _, rfl⟩ := execPush_next h
  · exact .inl rfl
  · exact .inl rfl
  · exact .inr rfl

theorem exec_pop_blk {s t : State} (h : exec .pop s = .next t) :
    t.blk = s.blk ∨ t.blk = s.blk.popped := by
  obtain ⟨_, rfl⟩ | ⟨_, _, rfl⟩ | ⟨_, _, _, _, _, _, rfl⟩ := execPop_next h
  · exact .inl rfl
  · exact .inl rfl
  · exact .inr rfl

/-- A PUSH writes no slot but the one at the old `WIDX` (R37). -/
theorem Block.read_pushed_other {b : Block} {a : Nat} (e : Elem) (h : a ≠ b.widx) :
    (b.pushed e).store.read a = b.store.read a := by
  rw [Block.pushed_store, Memory.read_write_other _ _ _ _ h]

/-! ### Runs -/

/-- From every state of the invariant a run of any length completes (R39). -/
theorem run_completes {n : Nat} {s : State} (hs : s.Inv) :
    ∃ t, Sys2Proof.core.run n s = .next t := by
  induction n generalizing s with
  | zero => exact ⟨s, rfl⟩
  | succ n ih =>
    obtain ⟨u, hu⟩ := step_completes hs
    obtain ⟨t, ht⟩ := ih (step_keeps_inv hs hu)
    have hstep : Sys2Proof.core.step s = .next u := hu
    exact ⟨t, by simp only [Host.Core.run, hstep, ht]⟩

/-! ### The obligations -/

/-- Settles O28: the reset state meets the invariant, every step keeps it, and under it every step
completes. -/
theorem noRunReachesModelFault : Obligations.NoRunReachesModelFault :=
  fun _ inputs _ hlegal => run_completes (startOf_inv hlegal inputs)

/-- Settles O45: a PUSH or POP that fails leaves the block, and one that succeeds advances its own
index; the one slot write of a PUSH is at the old `WIDX`. -/
theorem pushAndPopTouchOneCursor : Obligations.PushAndPopTouchOneCursor := by
  refine ⟨fun e s t h => ?push, fun s t h => ?pop⟩
  case push =>
    obtain ⟨hcfg, hinbox⟩ := exec_keeps_cfg_inbox h
    obtain hblk | hblk := exec_push_blk h <;> rw [hblk]
    · exact ⟨rfl, rfl, rfl, hcfg, hinbox, fun _ _ => rfl⟩
    · exact ⟨rfl, rfl, rfl, hcfg, hinbox, fun _ ha => Block.read_pushed_other e ha⟩
  case pop =>
    obtain ⟨hcfg, hinbox⟩ := exec_keeps_cfg_inbox h
    obtain hblk | hblk := exec_pop_blk h <;> rw [hblk]
    all_goals exact ⟨rfl, rfl, rfl, hcfg, hinbox, fun _ => rfl⟩

/-- Settles O46: the primitives test R34's requirement and R38's at once, and where `CAP <= DEPTH`
the first implies the second. -/
theorem memoryPrimitivesMeetTheirRule : Obligations.MemoryPrimitivesMeetTheirRule := by
  intro s i v hd
  have hiff := State.slotAccessible_iff hd i
  refine ⟨fun hp hi => ?accessible, fun hout => ?fault⟩
  case accessible =>
    have hacc : s.SlotAccessible i := hiff.mpr ⟨hp, hi⟩
    exact ⟨⟨s.setSlot i v, State.memWrite_of_accessible v hacc, Memory.read_write_same _ i v,
        fun a ha => Memory.read_write_other _ i a v ha, rfl⟩,
      State.memRead_of_accessible hacc, State.memRead_of_unwritten hacc⟩
  case fault =>
    have hacc : ¬ s.SlotAccessible i := fun h => by
      obtain ⟨hp, hi⟩ := hiff.mp h
      exact hout.elim (absurd hp) (Nat.not_le.mpr hi)
    exact ⟨State.memWrite_of_not_accessible v hacc, State.memRead_of_not_accessible hacc⟩

end Sys2Proof.Machine

/-!
PROOF. The encoding (`30_encoding.md`): the fields of a request word as numbers, the decoder one
equation for each `op`, the response word, and which response each operation can produce.
-/

namespace Sys2Proof

/-! ### The fields of a request word -/

/-- Two fields put together are a number in base `2^n` (R48, R54). -/
theorem toNat_append_eq_mul_add {m n : Nat} (x : BitVec m) (y : BitVec n) :
    (x ++ y).toNat = x.toNat * 2 ^ n + y.toNat := by
  rw [BitVec.toNat_append, ← Nat.shiftLeft_add_eq_or_of_lt y.isLt, Nat.shiftLeft_eq]

theorem Config.idxW_le_argW (cfg : Config) : cfg.idxW ≤ cfg.argW := Nat.le_max_left ..

theorem Config.elemW_le_argW (cfg : Config) : elemW ≤ cfg.argW := Nat.le_max_right ..

/-- Cutting a number to the argument field first loses none of its low `k` bits. -/
theorem mod_two_pow_argW_mod {cfg : Config} {k : Nat} (h : k ≤ cfg.argW) (n : Nat) :
    n % 2 ^ cfg.argW % 2 ^ k = n % 2 ^ k :=
  Nat.mod_mod_of_dvd n (Nat.pow_dvd_pow 2 h)

/-- The used bits of a CONSTRUCT's argument (R49). -/
theorem sizeField_eq_mod (cfg : Config) (arg : BitVec cfg.argW) :
    sizeField cfg arg = arg.toNat % 2 ^ cfg.idxW := by
  rw [sizeField, BitVec.extractLsb'_toNat, Nat.shiftRight_zero]

/-- The used bits of a PUSH's argument (R50). -/
theorem elementField_eq_ofNat_mod (cfg : Config) (arg : BitVec cfg.argW) :
    elementField cfg arg = BitVec.ofNat elemW (arg.toNat % 2 ^ elemW) := by
  apply BitVec.eq_of_toNat_eq
  rw [elementField, BitVec.extractLsb'_toNat, Nat.shiftRight_zero, BitVec.toNat_ofNat, Nat.mod_mod]

/-- `op` of the request number `w` (R48). -/
theorem opField_requestWires (cfg : Config) (w : Nat) :
    opField cfg (requestWires cfg w) = BitVec.ofNat 2 (w % 4) := by
  apply BitVec.eq_of_toNat_eq
  rw [opField, requestWires, BitVec.extractLsb'_toNat, BitVec.toNat_ofNat, Nat.shiftRight_zero,
    Nat.mod_mod_of_dvd w (Nat.pow_dvd_pow 2 (Nat.le_add_left 2 cfg.argW)), BitVec.toNat_ofNat,
    Nat.mod_mod]

/-- `arg` of the request number `w` (R48). -/
theorem argField_requestWires (cfg : Config) (w : Nat) :
    (argField cfg (requestWires cfg w)).toNat = w / 4 % 2 ^ cfg.argW := by
  have hreqW : 2 ^ cfg.reqW = 4 * 2 ^ cfg.argW := by rw [Config.reqW, Nat.pow_add, Nat.mul_comm]
  rw [argField, requestWires, BitVec.extractLsb'_toNat, BitVec.toNat_ofNat, hreqW,
    Nat.shiftRight_eq_div_pow, Nat.mod_mul_right_div_self, Nat.mod_mod]

/-! ### The decoder, one equation for each `op` -/

section
variable {cfg : Config} {req : BitVec cfg.reqW}

theorem decode_of_op_construct (h : opField cfg req = 0b00#2) :
    decode cfg req = .construct (sizeField cfg (argField cfg req)) := if_pos h

theorem decode_of_op_push (h : opField cfg req = 0b01#2) :
    decode cfg req = .push (elementField cfg (argField cfg req)) := by
  simp [decode, h]

theorem decode_of_op_pop (h : opField cfg req = 0b10#2) : decode cfg req = .pop := by
  simp [decode, h]

theorem decode_of_op_teardown (h : opField cfg req = 0b11#2) : decode cfg req = .teardown := by
  simp [decode, h]

end

section
variable (cfg : Config) {w : Nat}

theorem decodeRequest_construct (h : w % 4 = 0) :
    decodeRequest cfg w = .construct (w / 4 % 2 ^ cfg.idxW) := by
  rw [decodeRequest, decode_of_op_construct (by rw [opField_requestWires, h]), sizeField_eq_mod,
    argField_requestWires, mod_two_pow_argW_mod cfg.idxW_le_argW]

theorem decodeRequest_push (h : w % 4 = 1) :
    decodeRequest cfg w = .push (BitVec.ofNat elemW (w / 4 % 2 ^ elemW)) := by
  rw [decodeRequest, decode_of_op_push (by rw [opField_requestWires, h]), elementField_eq_ofNat_mod,
    argField_requestWires, mod_two_pow_argW_mod cfg.elemW_le_argW]

theorem decodeRequest_pop (h : w % 4 = 2) : decodeRequest cfg w = .pop :=
  decode_of_op_pop (by rw [opField_requestWires, h])

theorem decodeRequest_teardown (h : w % 4 = 3) : decodeRequest cfg w = .teardown :=
  decode_of_op_teardown (by rw [opField_requestWires, h])

/-- The decoder reads `op` and the used bits of `arg`, nothing else (R51). -/
theorem decodeRequest_eq_of_used_bits {w' : Nat} (hop : w % 4 = w' % 4)
    (hsize : w % 4 = 0 → w / 4 % 2 ^ cfg.idxW = w' / 4 % 2 ^ cfg.idxW)
    (helem : w % 4 = 1 → w / 4 % 2 ^ elemW = w' / 4 % 2 ^ elemW) :
    decodeRequest cfg w = decodeRequest cfg w' := by
  obtain h | h | h | h : w % 4 = 0 ∨ w % 4 = 1 ∨ w % 4 = 2 ∨ w % 4 = 3 := by omega
  case inl =>
    rw [decodeRequest_construct cfg h, decodeRequest_construct cfg (hop ▸ h), hsize h]
  case inr.inl => rw [decodeRequest_push cfg h, decodeRequest_push cfg (hop ▸ h), helem h]
  case inr.inr.inl => rw [decodeRequest_pop cfg h, decodeRequest_pop cfg (hop ▸ h)]
  case inr.inr.inr => rw [decodeRequest_teardown cfg h, decodeRequest_teardown cfg (hop ▸ h)]

end

/-! ### The canonical word -/

/-- A size below `2^IDX_W` survives its way through the argument field (R49). -/
theorem sizeField_ofNat (cfg : Config) {size : Nat} (h : size < 2 ^ cfg.idxW) :
    sizeField cfg (BitVec.ofNat cfg.argW size) = size := by
  rw [sizeField_eq_mod, BitVec.toNat_ofNat, mod_two_pow_argW_mod cfg.idxW_le_argW,
    Nat.mod_eq_of_lt h]

/-- Every element survives its way through the argument field (R50). -/
theorem elementField_setWidth (cfg : Config) (e : Elem) :
    elementField cfg (e.setWidth cfg.argW) = e := by
  rw [elementField, ← BitVec.setWidth_eq_extractLsb' cfg.elemW_le_argW,
    BitVec.setWidth_setWidth_of_le e cfg.elemW_le_argW, BitVec.setWidth_eq]

theorem decode_encode {cfg : Config} {i : Instr} (hi : i.wellFormed cfg = true) :
    decode cfg (encode cfg i) = i := by
  cases i with
  | construct size =>
    obtain ⟨hop, harg⟩ := Laws.CanonicalWord.construct size cfg
    rw [decode_of_op_construct hop, harg]
    exact congrArg Instr.construct (sizeField_ofNat cfg (of_decide_eq_true hi))
  | push e =>
    obtain ⟨hop, harg⟩ := Laws.CanonicalWord.push e cfg
    rw [decode_of_op_push hop, harg]
    exact congrArg Instr.push (elementField_setWidth cfg e)
  | pop => exact decode_of_op_pop (Laws.CanonicalWord.pop cfg).1
  | teardown => exact decode_of_op_teardown (Laws.CanonicalWord.teardown cfg).1

/-- The canonical word `{arg, op}` as a number (R48). -/
theorem encodeRequest_eq (cfg : Config) (i : Instr) :
    encodeRequest cfg i = (i.argument cfg).toNat * 4 + i.opCode.toNat :=
  toNat_append_eq_mul_add _ _

/-- The canonical argument of a size that fits its field is that number (R49). -/
theorem argument_construct_toNat (cfg : Config) {size : Nat} (h : size < 2 ^ cfg.idxW) :
    (Instr.argument cfg (.construct size)).toNat = size :=
  (BitVec.toNat_ofNat size cfg.argW).trans (Nat.mod_eq_of_lt
    (Nat.lt_of_lt_of_le h (Nat.pow_le_pow_right Nat.two_pos cfg.idxW_le_argW)))

/-- The canonical argument of a PUSH is its element (R50). -/
theorem argument_push_toNat (cfg : Config) (e : Elem) :
    (Instr.argument cfg (.push e)).toNat = e.toNat :=
  BitVec.toNat_setWidth_of_le cfg.elemW_le_argW

end Sys2Proof

namespace Sys2Proof.Machine

/-! ### The response word -/

/-- The codes 6 and 7 are no status's (R52). -/
theorem Status.code_ne_spare (st : Status) : st.code ≠ 0b110#3 ∧ st.code ≠ 0b111#3 := by
  cases st <;> decide

theorem responseWord_status (dout : Elem) (st : StatusCode) :
    (responseWord dout st).extractLsb' 0 3 = st := BitVec.extractLsb'_append_eq_right

theorem responseWord_dout (dout : Elem) (st : StatusCode) :
    (responseWord dout st).extractLsb' 3 8 = dout := BitVec.extractLsb'_append_eq_left

theorem responseWord_toNat (dout : Elem) (st : StatusCode) :
    (responseWord dout st).toNat = dout.toNat * 8 + st.toNat := toNat_append_eq_mul_add dout st

/-- With an element every wire is defined (R54). -/
theorem State.responseWires_of_element {s : State} {st : Status} {e : Elem}
    (h : s.resp = some ⟨st, some e⟩) : s.responseWires = responseWord e st.code := by
  rw [State.responseWires, h]

/-- Without an element the `dout` wires are free, the status wires are not (R53). -/
theorem State.responseWires_of_no_element {s : State} {st : Status}
    (h : s.resp = some ⟨st, none⟩) :
    ∃ free, s.responseWires = responseWord free st.code := by
  rw [State.responseWires, h]
  exact ⟨_, rfl⟩

/-! ### Which response each operation can produce -/

/-- `Produces depth i st dout`: with `DEPTH = depth` the operation `i` can answer `st` with `dout`
(R52, R53, R97 to R101). -/
inductive Produces (depth : Nat) : Instr → Status → Option Elem → Prop where
  | done {i : Instr} (notPop : i ≠ .pop) : Produces depth i .ok none
  | popped (e : Elem) : Produces depth .pop .ok (some e)
  | badState {i : Instr} (notTeardown : i ≠ .teardown) : Produces depth i .badState none
  | badSize : Produces depth (.construct 0) .badSize none
  | allocFail {size : Nat} (above : depth < size) : Produces depth (.construct size) .allocFail none
  | overflow (e : Elem) : Produces depth (.push e) .overflow none
  | underflow : Produces depth .pop .underflow none

/-- Every operation that completes has answered, and with a response it can produce. -/
theorem exec_produces {i : Instr} {s t : State} (h : exec i s = .next t) :
    ∃ st dout, t.resp = some ⟨st, dout⟩ ∧ Produces s.cfg.depth i st dout := by
  cases i with
  | construct size =>
    obtain ⟨_, rfl⟩ | ⟨_, rfl, rfl⟩ | ⟨_, _, hd, rfl⟩ | ⟨_, _, _, rfl⟩ := execConstruct_next h
    · exact ⟨_, _, rfl, .badState nofun⟩
    · exact ⟨_, _, rfl, .badSize⟩
    · exact ⟨_, _, rfl, .allocFail hd⟩
    · exact ⟨_, _, rfl, .done nofun⟩
  | push e =>
    obtain ⟨_, rfl⟩ | ⟨_, _, _, rfl⟩ | ⟨_, _, _, _, rfl⟩ := execPush_next h
    · exact ⟨_, _, rfl, .badState nofun⟩
    · exact ⟨_, _, rfl, .overflow e⟩
    · exact ⟨_, _, rfl, .done nofun⟩
  | pop =>
    obtain ⟨_, rfl⟩ | ⟨_, _, rfl⟩ | ⟨e, _, _, _, _, _, rfl⟩ := execPop_next h
    · exact ⟨_, _, rfl, .badState nofun⟩
    · exact ⟨_, _, rfl, .underflow⟩
    · exact ⟨_, _, rfl, .popped e⟩
  | teardown =>
    obtain ⟨_, rfl⟩ | ⟨_, rfl⟩ := execTeardown_next h
    all_goals exact ⟨_, _, rfl, .done nofun⟩

theorem State.status_of_resp {s : State} {st : Status} {dout : Option Elem}
    (h : s.resp = some ⟨st, dout⟩) : s.status = some st := by rw [State.status, h]; rfl

theorem State.element_of_resp {s : State} {st : Status} {dout : Option Elem}
    (h : s.resp = some ⟨st, dout⟩) : s.element = dout := by rw [State.element, h]; rfl

/-- The `when and only when` of R53. -/
theorem Produces.isSome_iff {depth : Nat} {i : Instr} {st : Status} {dout : Option Elem}
    (h : Produces depth i st dout) : dout.isSome = true ↔ i = .pop ∧ st = .ok := by
  cases h with
  | done notPop => simp [notPop]
  | popped e => simp
  | badState | badSize | allocFail | overflow | underflow => simp

/-! ### The obligations -/

/-- Settles O2: the two fields of the canonical word are its `op` and its argument, and the operand
is read back from the argument. -/
theorem decodeInvertsEncode : Obligations.DecodeInvertsEncode := fun _ _ => decode_encode

/-- Settles O3: the word is its two fields in base 4, and an operand that fits its field is its own
argument. -/
theorem encodedWordIsArgTimesFourPlusOp : Obligations.EncodedWordIsArgTimesFourPlusOp := by
  refine fun cfg => ⟨fun size hsize => ?construct, fun e => ?push, ?pop, ?teardown⟩
  all_goals rw [encodeRequest_eq]
  case construct => rw [argument_construct_toNat cfg hsize]; rfl
  case push => rw [argument_push_toNat]; rfl
  case pop => simp [Instr.argument, Instr.opCode]
  case teardown => simp [Instr.argument, Instr.opCode]

/-- Settles O4: the two words decode to the same operation, which is all a step takes from them. -/
theorem ignoredArgumentBitsHaveNoEffect : Obligations.IgnoredArgumentBitsHaveNoEffect := by
  intro s rest w w' hop hsize helem
  rw [step_of_inbox_request rfl, step_of_inbox_request rfl]
  exact congrArg (exec · _) (decodeRequest_eq_of_used_bits s.cfg hop hsize helem)

/-- Settles O43: the producers are read off `Produces`, status by status. -/
theorem statusCodesAndProducers : Obligations.StatusCodesAndProducers := by
  refine ⟨⟨rfl, rfl, rfl, rfl, rfl, rfl⟩, Status.code_ne_spare,
    fun i s t st hexec hst => ?producers⟩
  obtain ⟨st', dout, hresp, hprod⟩ := exec_produces hexec
  obtain rfl : st' = st := Option.some.inj ((State.status_of_resp hresp).symm.trans hst)
  refine ⟨?overflow, ?underflow, ?allocFail, ?badSize, ?badState⟩
  all_goals rintro rfl
  case overflow => cases hprod with | overflow e => exact ⟨e, rfl⟩
  case underflow => cases hprod with | underflow => rfl
  case allocFail => cases hprod with | allocFail above => exact ⟨_, rfl, above⟩
  case badSize => cases hprod with | badSize => rfl
  case badState => cases hprod with | badState notTeardown => exact notTeardown

/-- Settles O44: among the responses an operation can produce only a POP's OK carries an element. -/
theorem elementOnlyFromSuccessfulPop : Obligations.ElementOnlyFromSuccessfulPop := by
  intro i s t hexec
  obtain ⟨st, dout, hresp, hprod⟩ := exec_produces hexec
  rw [State.element_of_resp hresp, State.status_of_resp hresp, Option.some_inj]
  exact hprod.isSome_iff

/-- Settles O1: the decoder's equation for the `op` of each word gives its operand as a number. -/
theorem requestWordsDecodeAsWritten : Obligations.RequestWordsDecodeAsWritten :=
  ⟨decodeRequest_construct _ rfl, decodeRequest_construct _ rfl, decodeRequest_construct _ rfl,
    decodeRequest_push _ rfl, decodeRequest_push _ rfl, decodeRequest_pop _ rfl,
    decodeRequest_pop _ rfl, decodeRequest_teardown _ rfl, decodeRequest_teardown _ rfl⟩

/-- Settles O19: an idle input leads to the idle step whatever its word; a request runs an operation,
which completes under the invariant and has then answered. -/
theorem stepWithoutRequestChangesNothing : Obligations.StepWithoutRequestChangesNothing := by
  refine ⟨fun s w rest => ?idle, fun s w rest hs => ?request⟩
  case idle =>
    exact ⟨State.idleStep { s with inbox := rest }, step_of_inbox_idle rfl, rfl, rfl, rfl, rfl,
      fun _ => step_of_inbox_idle rfl⟩
  case request =>
    obtain ⟨t, hstep⟩ := step_completes (hs.withInbox (.request w :: rest))
    obtain ⟨_, _, hresp, _⟩ := exec_produces ((step_of_inbox_request rfl).symm.trans hstep)
    obtain ⟨_, hinbox⟩ := step_keeps_cfg_takes_input hstep
    exact ⟨t, hstep, by rw [hresp]; rfl, hinbox⟩

/-- Settles O42: the response word is `dout` and the status code side by side, with a free `dout`
where the response carries none. -/
theorem responseWordLayout : Obligations.ResponseWordLayout := by
  refine ⟨fun s r hr => ?status, fun s st e hr => ?element⟩
  case status =>
    obtain ⟨st, _ | e⟩ := r
    · obtain ⟨free, hwires⟩ := State.responseWires_of_no_element hr
      rw [hwires, responseWord_status]
    · rw [State.responseWires_of_element hr, responseWord_status]
  case element =>
    rw [State.responseWires_of_element hr]
    exact ⟨responseWord_dout e st.code, responseWord_toNat e st.code⟩

end Sys2Proof.Machine

/-!
PROOF. The index arithmetic (`40_index_arithmetic.md`): the two forms of `next` (R60, R61), the
comparators by occupancy (R68), the degenerate capacity 1 (R64), and what each operation makes of the
occupancy (R65).
-/

namespace Sys2Proof.Machine

/-! ### The successor function -/

/-- `next` in the form a comparator and a multiplexer compute (R60). -/
theorem nextIndex_eq_ite {i c : Nat} (h : i < c) :
    nextIndex i c = .ok (if i + 1 = c then 0 else i + 1) := by
  rw [nextIndex_of_lt h, succ_mod_eq_ite h]

/-- The `w`-bit incrementer computes the mathematical sum where that sum fits (R61). -/
theorem toNat_ofNat_add_one {w i : Nat} (h : i + 1 < 2 ^ w) :
    (BitVec.ofNat w i + BitVec.ofNat w 1).toNat = i + 1 := by
  rw [← BitVec.ofNat_add, BitVec.toNat_ofNat, Nat.mod_eq_of_lt h]

/-- The `w`-bit comparator against `c` compares the mathematical sum (R61). -/
theorem ofNat_add_one_eq_ofNat_iff {w i c : Nat} (hi : i + 1 < 2 ^ w) (hc : c < 2 ^ w) :
    BitVec.ofNat w i + BitVec.ofNat w 1 = BitVec.ofNat w c ↔ i + 1 = c := by
  rw [← BitVec.toNat_inj, toNat_ofNat_add_one hi, BitVec.toNat_ofNat, Nat.mod_eq_of_lt hc]

/-! ### The comparators by occupancy -/

theorem isEmpty_iff_occupancy {w r c : Nat} (hw : w < c) (hr : r < c) :
    isEmpty w r = true ↔ occupancy w r c = 0 := by
  rw [isEmpty_eq, decide_eq_true_iff, occupancy_eq_ite hw hr]
  split <;> omega

theorem isFull_iff_occupancy {w r c : Nat} (hw : w < c) (hr : r < c) :
    isFull w r c = true ↔ occupancy w r c = c - 1 := by
  rw [isFull_of_lt r hw, decide_eq_true_iff, succ_mod_eq_ite hw, occupancy_eq_ite hw hr]
  split_ifs <;> omega

/-! ### What each operation makes of the occupancy -/

/-- A response without an element and nothing else (R105). -/
theorem answersUnchanged_of_exec {i : Instr} {s : State} {st : Status}
    (h : exec i s = .next (s.respond st none)) : AnswersUnchanged i s st :=
  ⟨_, answers_of_exec h rfl, rfl⟩

/-- What the status OK says of a PUSH (R76). -/
theorem push_ok_blk {e : Elem} {s t : State} (h : Answers (.push e) s .ok t) :
    s.blk.phase = .active ∧ (s.blk.widx + 1) % s.blk.cap ≠ s.blk.ridx ∧
      t.blk = s.blk.pushed e := by
  obtain ⟨hexec, hst, _⟩ := h
  obtain ⟨_, rfl⟩ | ⟨_, _, _, rfl⟩ | ⟨hp, _, hroom, _, rfl⟩ := execPush_next hexec
  · simp at hst
  · simp at hst
  · exact ⟨hp, hroom, rfl⟩

/-- What the status OK says of a POP (R79). -/
theorem pop_ok_blk {s t : State} (h : Answers .pop s .ok t) :
    s.blk.phase = .active ∧ s.blk.widx ≠ s.blk.ridx ∧ t.blk = s.blk.popped := by
  obtain ⟨hexec, hst, _⟩ := h
  obtain ⟨_, rfl⟩ | ⟨_, _, rfl⟩ | ⟨_, hp, hne, _, _, _, rfl⟩ := execPop_next hexec
  · simp at hst
  · simp at hst
  · exact ⟨hp, hne, rfl⟩

/-- What the status OK says of a CONSTRUCT (R69). -/
theorem construct_ok_blk {size : Nat} {s t : State} (h : Answers (.construct size) s .ok t) :
    t.blk = ⟨.active, 0, 0, size, Memory.unwritten⟩ := by
  obtain ⟨hexec, hst, _⟩ := h
  obtain ⟨_, rfl⟩ | ⟨_, _, rfl⟩ | ⟨_, _, _, rfl⟩ | ⟨_, _, _, rfl⟩ := execConstruct_next hexec
  · simp at hst
  · simp at hst
  · simp at hst
  · rfl

/-- An operation leaves the block as it was or has answered OK (R105). -/
theorem exec_blk_eq_or_status_ok {i : Instr} {s t : State} (h : exec i s = .next t) :
    t.blk = s.blk ∨ t.status = some .ok := by
  cases i with
  | construct size =>
    obtain ⟨_, rfl⟩ | ⟨_, _, rfl⟩ | ⟨_, _, _, rfl⟩ | ⟨_, _, _, rfl⟩ := execConstruct_next h
    · exact .inl rfl
    · exact .inl rfl
    · exact .inl rfl
    · exact .inr rfl
  | push e =>
    obtain ⟨_, rfl⟩ | ⟨_, _, _, rfl⟩ | ⟨_, _, _, _, rfl⟩ := execPush_next h
    · exact .inl rfl
    · exact .inl rfl
    · exact .inr rfl
  | pop =>
    obtain ⟨_, rfl⟩ | ⟨_, _, rfl⟩ | ⟨_, _, _, _, _, _, rfl⟩ := execPop_next h
    · exact .inl rfl
    · exact .inl rfl
    · exact .inr rfl
  | teardown =>
    obtain ⟨_, rfl⟩ | ⟨_, rfl⟩ := execTeardown_next h
    all_goals exact .inr rfl

theorem Answers.blk_eq_of_ne_ok {i : Instr} {s t : State} {st : Status} (h : Answers i s st t)
    (hne : st ≠ .ok) : t.blk = s.blk := by
  obtain ⟨hexec, hst, _⟩ := h
  refine (exec_blk_eq_or_status_ok hexec).resolve_right fun hok => hne ?_
  exact Option.some.inj (hst.symm.trans hok)

/-- A buffer just opened holds nothing (R65, R69). -/
theorem Block.count_opened (size : Nat) (m : Memory) :
    (Block.mk .active 0 0 size m).count = 0 := by
  simp [Block.count, occupancy]

/-! ### The obligations -/

/-- Settles O6: neither the sum nor `c` reaches `2^w`, so sum and comparison are those of R60. -/
theorem fixedWidthIncrementNeverOverflows : Obligations.FixedWidthIncrementNeverOverflows := by
  intro w i c hi hc
  have hsum : i + 1 < 2 ^ w := by omega
  have hcap : c < 2 ^ w := by omega
  refine ⟨toNat_ofNat_add_one hsum, ?_⟩
  rw [nextIndex_eq_ite hi, apply_ite BitVec.toNat, toNat_ofNat_add_one hsum, BitVec.toNat_zero]
  simp only [ofNat_add_one_eq_ofNat_iff hsum hcap]

/-- Settles O7: with `CAP = 1` both indices are 0 and 0 is its own successor; with `CAP >= 2` the two
comparators ask for different occupancies. -/
theorem capacityOneIsEmptyAndFull : Obligations.CapacityOneIsEmptyAndFull := by
  refine ⟨fun s hp hcap hw hr => ?capOne, fun w r c hc hw hr ⟨hempty, hfull⟩ => ?never⟩
  case capOne =>
    have heq : s.blk.widx = s.blk.ridx := by omega
    have hlt : s.blk.widx < s.blk.cap := by omega
    have hnext : (s.blk.widx + 1) % s.blk.cap = s.blk.ridx := by
      rw [hcap, Nat.mod_one]
      omega
    exact ⟨(isEmpty_eq _ _).trans (decide_eq_true heq),
      (isFull_of_lt _ hlt).trans (decide_eq_true hnext),
      fun e => answersUnchanged_of_exec (execPush_of_full e hp hlt hnext),
      answersUnchanged_of_exec (execPop_of_empty hp heq)⟩
  case never =>
    have hzero := (isEmpty_iff_occupancy hw hr).mp hempty
    have hmax := (isFull_iff_occupancy hw hr).mp hfull
    omega

/-- Settles O8: `occupancy` without its remainder, compared with 0 and with `c - 1`. -/
theorem emptyAndFullByOccupancy : Obligations.EmptyAndFullByOccupancy :=
  fun w r _ hw hr => ⟨isEmpty_iff_occupancy hw hr, isFull_iff_occupancy hw hr,
    occupancy_le w r (Nat.zero_lt_of_lt hw)⟩

/-- Settles O9: a status fixes what the operation made of the block, and R25 bounds the indices that
PUSH and POP advance. -/
theorem occupancyChangesByOne : Obligations.OccupancyChangesByOne := by
  intro s t i st hs h
  refine ⟨?push, ?pop, ?construct, fun hne => congrArg Block.count (h.blk_eq_of_ne_ok hne)⟩
  case push =>
    rintro e rfl rfl
    obtain ⟨hp, hroom, hblk⟩ := push_ok_blk h
    obtain ⟨hw, hr⟩ := hs.indices hp
    rw [hblk, Block.count_pushed e hw hr hroom]
  case pop =>
    rintro rfl rfl
    obtain ⟨hp, hne, hblk⟩ := pop_ok_blk h
    obtain ⟨hw, hr⟩ := hs.indices hp
    rw [hblk, Block.count_popped hw hr hne]
  case construct =>
    rintro size rfl rfl
    rw [construct_ok_blk h, Block.count_opened]

/-- Settles O5: the remainder of R59 is 0 at the wrap and the sum itself below it. -/
theorem nextIsCompareAndWrap : Obligations.NextIsCompareAndWrap :=
  fun _ _ h => nextIndex_eq_ite h

end Sys2Proof.Machine

/-!
PROOF. CONSTRUCT (`41_construct.md`): its answer in every phase and for every size (R69 to R73), and
the retry after a failure (R74).
-/

namespace Sys2Proof.Machine

/-! ### What CONSTRUCT answers and leaves -/

/-- A size that fits opens the buffer (R69). -/
theorem answers_construct_of_fits {s : State} {size : Nat} (hp : s.blk.phase = .uninit)
    (h1 : 1 ≤ size) (hd : size ≤ s.cfg.depth) :
    Answers (.construct size) s .ok ((s.openBuffer size).respond .ok none) :=
  answers_of_exec (execConstruct_of_fits hp h1 hd) rfl

/-- Both indices of a buffer just opened are 0, and `next(0) = 0` for capacity 1 only (R63, R69). -/
theorem fullOut_of_blk_opened {t : State} {size : Nat}
    (hblk : t.blk = ⟨.active, 0, 0, size, Memory.unwritten⟩) (h1 : 1 ≤ size) :
    t.fullOut = decide (size = 1) := by
  have hp : t.blk.phase = .active := by rw [hblk]
  have hw : t.blk.widx < t.blk.cap := by rw [hblk]; exact h1
  rw [Bool.eq_iff_iff, State.fullOut_of_active hp hw, decide_eq_true_iff, hblk]
  exact Nat.one_mod_eq_zero_iff

/-! ### The obligations -/

/-- Settles O11: a status other than OK leaves the block, so the retry meets the same UNINIT phase
and the same `DEPTH`. -/
theorem failedConstructCanBeRetried : Obligations.FailedConstructCanBeRetried := by
  intro size s t st h hne
  have hblk : t.blk = s.blk := h.blk_eq_of_ne_ok hne
  refine ⟨hblk, fun hp => ?uninit⟩
  case uninit =>
    obtain ⟨_, _, hcfg, _⟩ := h
    have hpt : t.blk.phase = .uninit := by rw [hblk, hp]
    have hinactive : t.blk.phase ≠ .active := by rw [hpt]; nofun
    refine ⟨fun e => answersUnchanged_of_exec (execPush_of_inactive e hinactive),
      answersUnchanged_of_exec (execPop_of_inactive hinactive), fun good h1 hd => ?retry⟩
    case retry =>
      have hdt : good ≤ t.cfg.depth := by rw [hcfg]; exact hd
      exact ⟨_, answers_construct_of_fits hpt h1 hdt, rfl, rfl⟩

/-- Settles O10: one clause for each branch of R69, in the order of R73. -/
theorem constructFollowsItsRule : Obligations.ConstructFollowsItsRule := by
  intro size s
  refine ⟨fun hp => ?badState, fun hp h0 => ?badSize, fun hp h0 hd => ?allocFail,
    fun hp h1 hd => ?ok⟩
  case badState => exact answersUnchanged_of_exec (execConstruct_of_not_uninit size hp)
  case badSize =>
    subst h0
    exact answersUnchanged_of_exec (execConstruct_of_zero hp)
  case allocFail => exact answersUnchanged_of_exec (execConstruct_of_above_depth hp h0 hd)
  case ok =>
    exact ⟨_, answers_construct_of_fits hp h1 hd, rfl, rfl, rfl, rfl, Memory.read_unwritten,
      (State.emptyOut_iff _).mpr rfl, fullOut_of_blk_opened rfl h1⟩

end Sys2Proof.Machine

/-!
PROOF. PUSH and POP (`42_push_pop.md`): their answers in every phase and at every occupancy (R76 to
R82, R87), the refinement of the bounded queue (R88), and the laws of request sequences from reset
that the queue gives (R83 to R85), with the response every request has (R86).
-/

namespace Sys2Proof.Machine

/-! ### The flags by occupancy -/

/-- The empty test of POP asks for occupancy 0 (R68). -/
theorem Block.widx_eq_ridx_iff_count {b : Block} (hw : b.widx < b.cap) (hr : b.ridx < b.cap) :
    b.widx = b.ridx ↔ b.count = 0 := by
  rw [Block.count, ← isEmpty_iff_occupancy hw hr, isEmpty_eq, decide_eq_true_iff]

/-- The full test of PUSH asks for occupancy `CAP - 1` (R68). -/
theorem Block.succ_widx_eq_ridx_iff_count {b : Block} (hw : b.widx < b.cap) (hr : b.ridx < b.cap) :
    (b.widx + 1) % b.cap = b.ridx ↔ b.count = b.cap - 1 := by
  rw [Block.count, ← isFull_iff_occupancy hw hr, isFull_of_lt _ hw, decide_eq_true_iff]

theorem Block.count_le {b : Block} (hw : b.widx < b.cap) : b.count ≤ b.cap - 1 :=
  occupancy_le _ _ (Nat.zero_lt_of_lt hw)

theorem State.fullOut_eq_decide_count {s : State} (hp : s.blk.phase = .active)
    (hw : s.blk.widx < s.blk.cap) (hr : s.blk.ridx < s.blk.cap) :
    s.fullOut = decide (s.blk.count = s.blk.cap - 1) := by
  rw [Bool.eq_iff_iff, State.fullOut_of_active hp hw, decide_eq_true_iff,
    Block.succ_widx_eq_ridx_iff_count hw hr]

/-! ### The abstract contents after a PUSH and after a POP -/

/-- The slot a PUSH writes holds no element yet. -/
theorem Block.heldSlot_ne_widx {b : Block} {k : Nat} (hw : b.widx < b.cap) (hr : b.ridx < b.cap)
    (hk : k < b.count) : b.heldSlot k ≠ b.widx := by
  rw [Block.count, occupancy_eq_ite hw hr] at hk
  rw [Block.heldSlot]
  by_cases hwrap : b.ridx + k < b.cap
  · rw [Nat.mod_eq_of_lt hwrap]
    split at hk <;> omega
  · have hbelow : b.ridx + k - b.cap < b.widx := by split at hk <;> omega
    rw [Nat.mod_eq_sub_mod (Nat.le_of_not_lt hwrap), Nat.mod_eq_of_lt (hbelow.trans hw)]
    exact hbelow.ne

/-- A PUSH appends its element at the back (R88). -/
theorem Block.contents_pushed {b : Block} (e : Elem) (hw : b.widx < b.cap) (hr : b.ridx < b.cap)
    (hroom : (b.widx + 1) % b.cap ≠ b.ridx) :
    (b.pushed e).contents = b.contents ++ [some e] := by
  have hold : ∀ k ∈ List.range b.count,
      (b.store.write b.widx e).read (b.heldSlot k) = b.store.read (b.heldSlot k) := fun k hk =>
    Memory.read_write_other _ _ _ _ (Block.heldSlot_ne_widx hw hr (List.mem_range.mp hk))
  simp only [Block.contents, Block.count_pushed e hw hr hroom, Block.heldSlot_pushed,
    Block.pushed_store, List.range_succ, List.map_append, List.map_cons, List.map_nil,
    Block.heldSlot_count hw hr, Memory.read_write_same, List.map_congr_left hold]

/-- A POP removes the element at the front, which stands at the old `RIDX` (R88). -/
theorem Block.contents_eq_cons_popped {b : Block} (hw : b.widx < b.cap) (hr : b.ridx < b.cap)
    (hne : b.widx ≠ b.ridx) :
    b.contents = b.store.read b.ridx :: b.popped.contents := by
  simp only [Block.contents, ← Block.count_popped hw hr hne, List.range_succ_eq_map, List.map_cons,
    List.map_map, Block.heldSlot_zero hr, Function.comp_def, Block.heldSlot_popped,
    Block.popped_store]

theorem Block.Holds.length_eq {b : Block} {q : List Elem} (h : b.Holds q) :
    q.length = b.count := by
  have hlen := congrArg List.length h
  simpa [Block.contents] using hlen.symm

theorem Block.holds_opened (size : Nat) (m : Memory) : (Block.mk .active 0 0 size m).Holds [] := by
  simp [Block.Holds, Block.contents, Block.count_opened]

/-- Every held slot is written, so the abstract contents are a list of elements (R28, R88). -/
theorem State.Inv.exists_holds {s : State} (hs : s.Inv) (hp : s.blk.phase = .active) :
    ∃ q, s.blk.Holds q := by
  have hmem : s.blk.contents ∈ Set.range (List.map (some : Elem → Option Elem)) := by
    rw [Set.range_list_map]
    intro x hx
    obtain ⟨k, hk, rfl⟩ := List.mem_map.mp hx
    obtain ⟨e, he⟩ := Option.isSome_iff_exists.mp (hs.held hp k (List.mem_range.mp hk))
    exact ⟨e, he.symm⟩
  obtain ⟨q, hq⟩ := hmem
  exact ⟨q, hq.symm⟩

/-! ### The bounded queue of R88 -/

/-- The operations of the abstract queue. -/
inductive QueueOp where
  | push (e : Elem)
  | pop

/-- The request that asks the block for a queue operation (R47). -/
def QueueOp.instr : QueueOp → Instr
  | .push e => .push e
  | .pop => .pop

/-- R88: the response of a queue of at most `c - 1` elements, and its elements afterwards. -/
def QueueOp.answer (c : Nat) : List Elem → QueueOp → Response × List Elem
  | q, .push e => if q.length < c - 1 then (⟨.ok, none⟩, q ++ [e]) else (⟨.overflow, none⟩, q)
  | [], .pop => (⟨.underflow, none⟩, [])
  | e :: q, .pop => (⟨.ok, some e⟩, q)

/-- The responses of the queue to a sequence of operations. -/
def queueResponses (c : Nat) : List Elem → List QueueOp → List Response
  | _, [] => []
  | q, op :: ops => (op.answer c q).1 :: queueResponses c (op.answer c q).2 ops

theorem QueueOp.answer_push_of_lt {c : Nat} {q : List Elem} (e : Elem) (h : q.length < c - 1) :
    (QueueOp.push e).answer c q = (⟨.ok, none⟩, q ++ [e]) := if_pos h

theorem QueueOp.answer_push_of_le {c : Nat} {q : List Elem} (e : Elem) (h : c - 1 ≤ q.length) :
    (QueueOp.push e).answer c q = (⟨.overflow, none⟩, q) := if_neg (Nat.not_lt.mpr h)

@[simp] theorem QueueOp.answer_pop_nil (c : Nat) :
    QueueOp.pop.answer c [] = (⟨.underflow, none⟩, []) := rfl
@[simp] theorem QueueOp.answer_pop_cons (c : Nat) (e : Elem) (q : List Elem) :
    QueueOp.pop.answer c (e :: q) = (⟨.ok, some e⟩, q) := rfl

@[simp] theorem queueResponses_nil (c : Nat) (q : List Elem) : queueResponses c q [] = [] := rfl
@[simp] theorem queueResponses_cons (c : Nat) (q : List Elem) (op : QueueOp) (ops : List QueueOp) :
    queueResponses c q (op :: ops) =
      (op.answer c q).1 :: queueResponses c (op.answer c q).2 ops := rfl

/-- Pushes that fit all succeed, and the queue then ends with their elements. -/
theorem queueResponses_pushes {c : Nat} {q : List Elem} (es : List Elem) (ops : List QueueOp)
    (h : q.length + es.length ≤ c - 1) :
    queueResponses c q (es.map QueueOp.push ++ ops) =
      List.replicate es.length ⟨.ok, none⟩ ++ queueResponses c (q ++ es) ops := by
  induction es generalizing q with
  | nil => simp
  | cons e es ih =>
    rw [List.length_cons] at h
    have hrest : (q ++ [e]).length + es.length ≤ c - 1 := by
      rw [List.length_append, List.length_singleton]
      omega
    rw [List.map_cons, List.cons_append, queueResponses_cons,
      QueueOp.answer_push_of_lt e (by omega), ih hrest, List.append_assoc, List.singleton_append,
      List.length_cons, List.replicate_succ, List.cons_append]

/-- As many pops as there are elements return them all, the oldest first. -/
theorem queueResponses_pops (c : Nat) (q : List Elem) :
    queueResponses c q (List.replicate q.length .pop) = q.map fun e => ⟨.ok, some e⟩ := by
  induction q with
  | nil => rfl
  | cons e q ih => simp [List.replicate_succ, ih]

/-- Pushed in and popped out, the elements come back in order (R83). -/
theorem queueResponses_pushes_pops {c : Nat} {es : List Elem} (h : es.length ≤ c - 1) :
    queueResponses c [] (es.map QueueOp.push ++ List.replicate es.length .pop) =
      List.replicate es.length ⟨.ok, none⟩ ++ es.map fun e => ⟨.ok, some e⟩ := by
  have hfits : ([] : List Elem).length + es.length ≤ c - 1 := by rwa [List.length_nil, Nat.zero_add]
  rw [queueResponses_pushes es _ hfits, List.nil_append, queueResponses_pops]

/-- The first `c - 1` pushes fill the queue, and the last one meets it full (R85). -/
theorem queueResponses_pushes_overflow {c : Nat} {es : List Elem} (h1 : 1 ≤ c)
    (hlen : es.length = c) :
    queueResponses c [] (es.map QueueOp.push) =
      List.replicate (c - 1) ⟨.ok, none⟩ ++ [⟨.overflow, none⟩] := by
  obtain rfl | ⟨front, last, rfl⟩ := List.eq_nil_or_concat es
  · exact absurd hlen (Nat.ne_of_lt h1)
  have hfront : front.length = c - 1 := by
    rw [List.concat_eq_append, List.length_append, List.length_singleton] at hlen
    omega
  have hfits : ([] : List Elem).length + front.length ≤ c - 1 := by
    rw [List.length_nil, Nat.zero_add, hfront]
  rw [List.concat_eq_append, List.map_append, queueResponses_pushes front _ hfits, hfront,
    List.nil_append, List.map_singleton, queueResponses_cons,
    QueueOp.answer_push_of_le last hfront.ge, queueResponses_nil]

/-! ### The block simulates the queue -/

/-- An ACTIVE block of capacity `c` in a state of the invariant, holding exactly `q` (R88). -/
structure State.HoldsQueue (s : State) (c : Nat) (q : List Elem) : Prop where
  inv : s.Inv
  active : s.blk.phase = .active
  cap : s.blk.cap = c
  holds : s.blk.Holds q

namespace State.HoldsQueue

variable {s : State} {c : Nat} {q : List Elem}

/-- The inputs still to come are no part of the queue. -/
theorem withInbox (h : s.HoldsQueue c q) (inputs : List Input) :
    State.HoldsQueue { s with inbox := inputs } c q :=
  ⟨h.inv.withInbox inputs, h.active, h.cap, h.holds⟩

/-- A response that leaves the block leaves the queue. -/
theorem respond (h : s.HoldsQueue c q) (st : Status) (dout : Option Elem) :
    (s.respond st dout).HoldsQueue c q where
  inv := h.inv.of_blockChange rfl .unchanged
  active := h.active
  cap := h.cap
  holds := h.holds

/-- The full test of PUSH is the length test of the queue (R68, R88). -/
theorem full_iff (h : s.HoldsQueue c q) :
    (s.blk.widx + 1) % s.blk.cap = s.blk.ridx ↔ c - 1 ≤ q.length := by
  obtain ⟨hw, hr⟩ := h.inv.indices h.active
  have hle := Block.count_le hw
  rw [Block.succ_widx_eq_ridx_iff_count hw hr, h.holds.length_eq, ← h.cap]
  omega

/-- The empty test of POP is the emptiness of the queue (R68, R88). -/
theorem empty_iff (h : s.HoldsQueue c q) : s.blk.widx = s.blk.ridx ↔ q = [] := by
  obtain ⟨hw, hr⟩ := h.inv.indices h.active
  rw [Block.widx_eq_ridx_iff_count hw hr, ← h.holds.length_eq, List.length_eq_zero_iff]

theorem afterPush (h : s.HoldsQueue c q) (e : Elem)
    (hroom : (s.blk.widx + 1) % s.blk.cap ≠ s.blk.ridx) :
    (s.afterPush e).HoldsQueue c (q ++ [e]) := by
  obtain ⟨hw, hr⟩ := h.inv.indices h.active
  refine ⟨h.inv.of_blockChange rfl (.pushed e h.active hw hroom), h.active, h.cap, ?holds⟩
  case holds =>
    rw [State.afterPush_blk, Block.Holds, Block.contents_pushed e hw hr hroom, h.holds,
      List.map_append, List.map_singleton]

/-- A block that holds `e` before `q` has `e` at `RIDX`, and without it holds `q`. -/
theorem afterPop {e : Elem} (h : s.HoldsQueue c (e :: q)) (hne : s.blk.widx ≠ s.blk.ridx) :
    s.blk.store.read s.blk.ridx = some e ∧ (s.afterPop e).HoldsQueue c q := by
  obtain ⟨hw, hr⟩ := h.inv.indices h.active
  have hcontents := (Block.contents_eq_cons_popped hw hr hne).symm.trans h.holds
  obtain ⟨hread, hrest⟩ := List.cons_eq_cons.mp hcontents
  exact ⟨hread, h.inv.of_blockChange rfl (.popped h.active hne hr), h.active, h.cap, hrest⟩

/-- The simulation step of R88: the block answers as the queue does and then holds what it holds. -/
theorem exec_simulates (h : s.HoldsQueue c q) (op : QueueOp) :
    ∃ t, exec op.instr s = .next t ∧ t.resp = some (op.answer c q).1 ∧
      t.HoldsQueue c (op.answer c q).2 := by
  obtain ⟨hw, hr⟩ := h.inv.indices h.active
  obtain ⟨_, hd⟩ := h.inv.capacity h.active
  cases op with
  | push e =>
    by_cases hfull : (s.blk.widx + 1) % s.blk.cap = s.blk.ridx
    · rw [QueueOp.answer_push_of_le e (h.full_iff.mp hfull)]
      exact ⟨_, execPush_of_full e h.active hw hfull, rfl, h.respond _ _⟩
    · rw [QueueOp.answer_push_of_lt e (Nat.lt_of_not_le fun hle => hfull (h.full_iff.mpr hle))]
      exact ⟨_, execPush_of_room e h.active hw hd hfull, rfl, h.afterPush e hfull⟩
  | pop =>
    cases q with
    | nil => exact ⟨_, execPop_of_empty h.active (h.empty_iff.mpr rfl), rfl, h.respond _ _⟩
    | cons e q =>
      have hne : s.blk.widx ≠ s.blk.ridx := fun heq => List.cons_ne_nil e q (h.empty_iff.mp heq)
      obtain ⟨hread, hafter⟩ := h.afterPop hne
      exact ⟨_, execPop_of_held h.active hne hr hd hread, rfl, hafter⟩

/-- The simulation step where the queue's answer is known. -/
theorem answers {op : QueueOp} {st : Status} {dout : Option Elem} {q' : List Elem}
    (h : s.HoldsQueue c q) (hop : op.answer c q = (⟨st, dout⟩, q')) :
    ∃ t, Answers op.instr s st t ∧ t.element = dout ∧ t.HoldsQueue c q' := by
  obtain ⟨t, hexec, hresp, ht⟩ := h.exec_simulates op
  rw [hop] at hresp ht
  exact ⟨t, answers_of_exec hexec (State.status_of_resp hresp), State.element_of_resp hresp, ht⟩

/-- Where the queue refuses, the block changes nothing (R105). -/
theorem answersUnchanged {op : QueueOp} {st : Status} {dout : Option Elem} {q' : List Elem}
    (h : s.HoldsQueue c q) (hop : op.answer c q = (⟨st, dout⟩, q')) (hst : st ≠ .ok) :
    AnswersUnchanged op.instr s st := by
  obtain ⟨t, hanswers, _, _⟩ := h.answers hop
  exact ⟨t, hanswers, hanswers.blk_eq_of_ne_ok hst⟩

end State.HoldsQueue

/-! ### Sequences of requests -/

/-- The port reads back the operation whose canonical word is presented (R48). -/
theorem decodeRequest_encodeRequest {cfg : Config} {i : Instr} (hi : i.wellFormed cfg = true) :
    decodeRequest cfg (encodeRequest cfg i) = i := by
  rw [decodeRequest, requestWires, encodeRequest, BitVec.ofNat_toNat, BitVec.setWidth_eq,
    decode_encode hi]

theorem step_of_inbox_requestOf {s : State} {i : Instr} {rest : List Input}
    (hi : i.wellFormed s.cfg = true) (h : s.inbox = requestOf s.cfg i :: rest) :
    step s = exec i { s with inbox := rest } := by
  rw [step_of_inbox_request h, decodeRequest_encodeRequest hi]

theorem QueueOp.instr_wellFormed (cfg : Config) (op : QueueOp) :
    op.instr.wellFormed cfg = true := by
  cases op <;> rfl

/-- A sequence of PUSH and POP requests gets the queue's responses. -/
theorem State.HoldsQueue.responses_eq {s : State} {c : Nat} {q : List Elem} {ops : List QueueOp}
    (h : s.HoldsQueue c q) (hin : s.inbox = ops.map fun op => requestOf s.cfg op.instr) :
    responses ops.length s = queueResponses c q ops := by
  induction ops generalizing s q with
  | nil => rfl
  | cons op ops ih =>
    obtain ⟨t, hexec, hresp, ht⟩ := (h.withInbox _).exec_simulates op
    obtain ⟨hcfg, hinbox⟩ := exec_keeps_cfg_inbox hexec
    have hstep := (step_of_inbox_requestOf (op.instr_wellFormed s.cfg) hin).trans hexec
    rw [List.length_cons, responses_succ_of_next hstep, hresp, ih ht (by rw [hinbox, hcfg]),
      queueResponses_cons, Option.toList_some, List.singleton_append]

/-- After a CONSTRUCT that succeeds the block is the empty queue of its capacity (R69, R88). -/
theorem holdsQueue_of_construct {s t : State} {size : Nat} (hs : s.Inv)
    (h : Answers (.construct size) s .ok t) : t.HoldsQueue size [] := by
  have hblk := construct_ok_blk h
  obtain ⟨hexec, _, hcfg, _⟩ := h
  exact ⟨hs.of_blockChange hcfg (exec_changes_block hexec), by rw [hblk], by rw [hblk],
    hblk ▸ Block.holds_opened size _⟩

/-- From reset `Construct(c)` answers OK, and then the block is the empty queue (R83 to R85). -/
theorem responses_construct_then_queue {cfg : Config} {c : Nat} (ops : List QueueOp)
    (hlegal : cfg.Legal) (h1 : 1 ≤ c) (hd : c ≤ cfg.depth) :
    responses (1 + ops.length)
        (startOf cfg ((Instr.construct c :: ops.map QueueOp.instr).map (requestOf cfg))) =
      ⟨.ok, none⟩ :: queueResponses c [] ops := by
  have hwf : (Instr.construct c).wellFormed cfg = true :=
    decide_eq_true (Nat.lt_of_le_of_lt hd hlegal.depth_lt)
  have hanswers := answers_construct_of_fits
    (s := startOf cfg ((ops.map QueueOp.instr).map (requestOf cfg))) rfl h1 hd
  have hqueue := holdsQueue_of_construct (startOf_inv hlegal _) hanswers
  have hstep := (step_of_inbox_requestOf (s := startOf cfg (requestOf cfg (.construct c) :: _))
    hwf rfl).trans hanswers.1
  rw [Nat.add_comm, List.map_cons, responses_succ_of_next hstep,
    hqueue.responses_eq (ops := ops) (List.map_map ..)]
  rfl

/-! ### The obligations -/

/-- Settles O32: the simulation step of the bounded queue, outcome by outcome. -/
theorem blockRefinesBoundedQueue : Obligations.BlockRefinesBoundedQueue := by
  intro s hs
  refine ⟨fun size t h => (holdsQueue_of_construct hs h).holds, hs.exists_holds,
    fun q hp hq => ?operations⟩
  have h : s.HoldsQueue s.blk.cap q := ⟨hs, hp, rfl, hq⟩
  refine ⟨hq.length_eq, fun e hlen => ?pushed, fun e hlen => ?overflow, ?underflow, ?popped⟩
  case pushed =>
    obtain ⟨t, hanswers, _, ht⟩ := h.answers (QueueOp.answer_push_of_lt e hlen)
    exact ⟨t, hanswers, ht.holds, ht.active, ht.cap⟩
  case overflow => exact h.answersUnchanged (QueueOp.answer_push_of_le e hlen) nofun
  case underflow =>
    rintro rfl
    exact h.answersUnchanged (QueueOp.answer_pop_nil _) nofun
  case popped =>
    rintro e q' rfl
    obtain ⟨t, hanswers, helement, ht⟩ := h.answers (QueueOp.answer_pop_cons _ e q')
    exact ⟨t, hanswers, helement, ht.holds, ht.active, ht.cap⟩

/-- Settles O30: under the invariant every operation has its row of R21, and what completes has
answered. -/
theorem everyRequestIsAnswered : Obligations.EveryRequestIsAnswered := by
  intro s i hs
  obtain ⟨t, ⟨hexec, _⟩, _⟩ := exec_followsRow hs i
  obtain ⟨_, _, hresp, _⟩ := exec_produces hexec
  exact ⟨t, hexec, by rw [hresp]; rfl, (exec_blk_eq_or_status_ok hexec).symm⟩

/-- Settles O33: the block answers as the queue does, which takes the pushes and gives them back in
order. -/
theorem fifoLaw : Obligations.FifoLaw := by
  intro cfg c es hlegal h1 hd hfits program rs
  have hprogram : program = .construct c ::
      (es.map QueueOp.push ++ List.replicate es.length QueueOp.pop).map QueueOp.instr := by
    rw [List.map_append, List.map_map, List.map_replicate]
    rfl
  have hlength : program.length = 1 + (es.length + es.length) := by
    simp only [program, List.length_append, List.length_singleton, List.length_map,
      List.length_replicate, Nat.add_assoc]
  have hrs : rs = ⟨.ok, none⟩ ::
      (List.replicate es.length ⟨.ok, none⟩ ++ es.map fun e => ⟨.ok, some e⟩) := by
    have hqueue := responses_construct_then_queue
      (es.map QueueOp.push ++ List.replicate es.length QueueOp.pop) hlegal h1 hd
    rw [← hprogram, queueResponses_pushes_pops hfits, List.length_append, List.length_map,
      List.length_replicate, ← hlength] at hqueue
    exact hqueue
  rw [hrs, hlength]
  constructor
  · simp [Nat.add_comm 1, List.replicate_succ, Function.comp_def]
  · simp [Nat.add_comm 1, Function.comp_def]

/-- Settles O34: the block answers as the queue does, which the first `c - 1` pushes fill. -/
theorem fillThenOverflow : Obligations.FillThenOverflow := by
  intro cfg c es hlegal h1 hd hlen
  have hqueue := responses_construct_then_queue (es.map QueueOp.push) hlegal h1 hd
  rw [List.length_map, hlen, queueResponses_pushes_overflow h1 hlen, List.map_map] at hqueue
  refine (congrArg (List.map Response.status) hqueue).trans ?_
  rw [List.map_cons, List.map_append, List.map_replicate, List.map_singleton]

/-- Settles O35: the queue of a fresh buffer is empty. -/
theorem freshBufferUnderflows : Obligations.FreshBufferUnderflows := by
  intro cfg c hlegal h1 hd
  exact congrArg (List.map Response.status) (responses_construct_then_queue [.pop] hlegal h1 hd)

/-- Settles O12: the phase test, then the full test; after a PUSH with room the indices differ. -/
theorem pushFollowsItsRule : Obligations.PushFollowsItsRule := by
  intro e s
  refine ⟨fun hp => ?badState, fun hp hw hr hd => ⟨fun hfull => ?overflow, fun hroom => ?ok⟩⟩
  case badState => exact answersUnchanged_of_exec (execPush_of_inactive e hp)
  case overflow => exact answersUnchanged_of_exec (execPush_of_full e hp hw hfull)
  case ok =>
    have hnext : (s.blk.widx + 1) % s.blk.cap < s.blk.cap := Nat.mod_lt _ (Nat.zero_lt_of_lt hw)
    exact ⟨s.afterPush e, answers_of_exec (execPush_of_room e hp hw hd hroom) rfl,
      Memory.read_write_same _ _ _, fun _ ha => Block.read_pushed_other e ha, rfl, rfl, rfl, hp,
      Bool.eq_false_iff.mpr fun hempty => hroom ((State.emptyOut_iff _).mp hempty),
      State.fullOut_eq_decide_count (s := s.afterPush e) hp hnext hr⟩

/-- Settles O13: the phase test, then the empty test; after a POP at most `CAP - 2` elements are
held. -/
theorem popFollowsItsRule : Obligations.PopFollowsItsRule := by
  intro s
  refine ⟨fun hp => ?badState, fun hp he => ?underflow, fun e hp hne hw hr hd hread => ?ok⟩
  case badState => exact answersUnchanged_of_exec (execPop_of_inactive hp)
  case underflow => exact answersUnchanged_of_exec (execPop_of_empty hp he)
  case ok =>
    have hnext : (s.blk.ridx + 1) % s.blk.cap < s.blk.cap := Nat.mod_lt _ (Nat.zero_lt_of_lt hr)
    have hfull : (s.afterPop e).fullOut = false := by
      have hcount := Block.count_popped hw hr hne
      have hle := Block.count_le hw
      rw [State.fullOut_eq_decide_count (s := s.afterPop e) hp hw hnext, decide_eq_false_iff_not,
        State.afterPop_blk, Block.popped_cap]
      omega
    have hempty : (s.afterPop e).emptyOut = decide ((s.blk.ridx + 1) % s.blk.cap = s.blk.widx) := by
      rw [Bool.eq_iff_iff, State.emptyOut_iff, decide_eq_true_iff]
      exact eq_comm
    exact ⟨s.afterPop e, answers_of_exec (execPop_of_held hp hne hr hd hread) rfl, rfl, rfl, rfl,
      rfl, hp, rfl, hfull, hempty⟩

/-- Settles O36: EMPTY and POP make the same comparison. -/
theorem equalIndicesUnderflow : Obligations.EqualIndicesUnderflow :=
  fun s hp he => ⟨s.emptyOut_iff.mpr he, answersUnchanged_of_exec (execPop_of_empty hp he)⟩

end Sys2Proof.Machine

/-!
PROOF. TEARDOWN (`43_teardown.md`): its answer in every phase (R90 to R93), its idempotence (R94),
and the TORN phase, which nothing but `rst` leaves (R95).
-/

namespace Sys2Proof.Machine

/-! ### What TEARDOWN answers and leaves -/

/-- The release of the storage (R90). -/
theorem answers_teardown_of_active {s : State} (hp : s.blk.phase = .active) :
    Answers .teardown s .ok (s.closeBuffer.respond .ok none) :=
  answers_of_exec (execTeardown_of_active hp) rfl

/-- The no-op of R91 and R92. -/
theorem answersUnchanged_teardown_of_inactive {s : State} (hp : s.blk.phase ≠ .active) :
    AnswersUnchanged .teardown s .ok :=
  answersUnchanged_of_exec (execTeardown_of_inactive hp)

/-- TEARDOWN never fails (R93), and the next TEARDOWN finds nothing to release (R94). -/
theorem teardown_answers_ok_leaves_inactive (s : State) :
    ∃ t, Answers .teardown s .ok t ∧ t.blk.phase ≠ .active := by
  by_cases hp : s.blk.phase = .active
  · exact ⟨_, answers_teardown_of_active hp, nofun⟩
  · obtain ⟨t, hanswers, hblk⟩ := answersUnchanged_teardown_of_inactive hp
    exact ⟨t, hanswers, by rwa [hblk]⟩

/-- A TEARDOWN in the ACTIVE phase goes to TORN (R90). -/
theorem Answers.torn_of_teardown {s t : State} {st : Status} (h : Answers .teardown s st t)
    (hp : s.blk.phase = .active) : t.blk.phase = .torn := by
  obtain ⟨hexec, _⟩ := h
  obtain ⟨_, rfl⟩ | ⟨hinactive, _⟩ := execTeardown_next hexec
  · rfl
  · exact absurd hp hinactive

/-! ### The TORN phase -/

/-- The column TORN of the life-cycle table: what each operation answers there (R21, R95). -/
def statusInTorn : Instr → Status
  | .construct _ => .badState
  | .push _ => .badState
  | .pop => .badState
  | .teardown => .ok

/-- In the TORN phase every operation answers its status and does nothing else (R95). -/
theorem exec_of_torn {s : State} (hp : s.blk.phase = .torn) (i : Instr) :
    exec i s = .next (s.respond (statusInTorn i) none) := by
  have hinactive : s.blk.phase ≠ .active := by rw [hp]; nofun
  cases i with
  | construct size => exact execConstruct_of_not_uninit size (by rw [hp]; nofun)
  | push e => exact execPush_of_inactive e hinactive
  | pop => exact execPop_of_inactive hinactive
  | teardown => exact execTeardown_of_inactive hinactive

theorem answersUnchanged_of_torn {s : State} (hp : s.blk.phase = .torn) (i : Instr) :
    AnswersUnchanged i s (statusInTorn i) :=
  answersUnchanged_of_exec (exec_of_torn hp i)

/-- From TORN a step that does not take `rst` completes and leaves the block (R95). -/
theorem step_of_torn {s : State} (hp : s.blk.phase = .torn)
    (hrst : s.inbox.head? ≠ some .reset) : ∃ t, step s = .next t ∧ t.blk = s.blk := by
  cases hin : s.inbox with
  | nil => exact ⟨_, step_of_inbox_nil hin, rfl⟩
  | cons input rest =>
    cases input with
    | reset => exact absurd (by rw [hin]; rfl) hrst
    | idle w => exact ⟨_, step_of_inbox_idle hin, rfl⟩
    | request w =>
      have hexec := exec_of_torn (s := { s with inbox := rest }) hp (decodeRequest s.cfg w)
      exact ⟨_, (step_of_inbox_request hin).trans hexec, rfl⟩

theorem State.NoResetWithin.head?_ne_reset {n : Nat} {s : State}
    (h : s.NoResetWithin (n + 1)) : s.inbox.head? ≠ some .reset := by
  intro hhead
  obtain ⟨rest, hin⟩ := List.head?_eq_some_iff.mp hhead
  exact h .reset (by rw [hin]; exact List.mem_cons_self) rfl

/-- From TORN a run without `rst` completes and leaves the block (R95). -/
theorem run_of_torn {n : Nat} {s : State} (hn : s.NoResetWithin n) (hp : s.blk.phase = .torn) :
    ∃ u, Sys2Proof.core.run n s = .next u ∧ u.blk = s.blk := by
  induction n generalizing s with
  | zero => exact ⟨s, rfl, rfl⟩
  | succ n ih =>
    obtain ⟨t, ht, hblk⟩ := step_of_torn hp hn.head?_ne_reset
    obtain ⟨_, hn'⟩ := hn.step ht
    obtain ⟨u, hu, hublk⟩ := ih hn' (by rw [hblk, hp])
    have hstep : Sys2Proof.core.step s = .next t := ht
    exact ⟨u, by simp only [Host.Core.run, hstep, hu], hublk.trans hblk⟩

/-! ### The obligations -/

/-- Settles O16: a TEARDOWN from ACTIVE goes to TORN, a run without `rst` leaves the block there, and
there every operation only answers its status. -/
theorem tornStaysUntilReset : Obligations.TornStaysUntilReset := by
  intro n s t hp hteardown hn
  have htorn : t.blk.phase = .torn := hteardown.torn_of_teardown hp
  obtain ⟨u, hrun, hblk⟩ := run_of_torn hn htorn
  have hutorn : u.blk.phase = .torn := by rw [hblk, htorn]
  have hanswers := answersUnchanged_of_torn hutorn
  exact ⟨u, hrun, hblk, hutorn, fun size => hanswers (.construct size),
    fun e => hanswers (.push e), hanswers .pop, hanswers .teardown⟩

/-- Settles O14: one clause for each branch of R90; the flags follow from the cleared registers and
the phase. -/
theorem teardownFollowsItsRule : Obligations.TeardownFollowsItsRule := by
  intro s
  refine ⟨fun hp => ?active, answersUnchanged_teardown_of_inactive⟩
  case active =>
    exact ⟨_, answers_teardown_of_active hp, rfl, rfl, rfl, rfl, Memory.read_unwritten,
      (State.emptyOut_iff _).mpr rfl, State.fullOut_of_inactive nofun⟩

/-- Settles O15: the first TEARDOWN leaves a phase other than ACTIVE, where the second is the no-op of
R91 and R92. -/
theorem teardownTwiceEqualsOnce : Obligations.TeardownTwiceEqualsOnce := by
  intro s
  obtain ⟨t, hfirst, hinactive⟩ := teardown_answers_ok_leaves_inactive s
  obtain ⟨u, hsecond, hblk⟩ := answersUnchanged_teardown_of_inactive hinactive
  exact ⟨t, u, hfirst, hsecond, hblk⟩

end Sys2Proof.Machine

/-!
PROOF. Failures (`60_exceptions.md`): a status other than OK leaves the block (R105).
-/

namespace Sys2Proof.Machine

/-! ### The obligations -/

/-- Settles O31: every operation leaves the configuration and the inputs to come, so the completed
operation is an answer with its status, and an answer other than OK leaves the block. -/
theorem failuresChangeNothing : Obligations.FailuresChangeNothing := by
  intro i s t st hexec hst hne
  have hanswers : Answers i s st t := answers_of_exec hexec hst
  exact hanswers.blk_eq_of_ne_ok hne

end Sys2Proof.Machine

/-!
PROOF. Reset and hazards (`70_reset_and_hazards.md`): the order of a PUSH and a POP is observable
(R123).
-/

namespace Sys2Proof.Machine

/-! ### Two queue operations in a row -/

namespace State.HoldsQueue

variable {s : State} {c : Nat} {q : List Elem}

/-- Two operations in a row answer as the queue does: the second meets what the first left (R88,
R123). -/
theorem answers_twice {op₁ op₂ : QueueOp} {st₁ st₂ : Status} {dout₁ dout₂ : Option Elem}
    {q₁ q₂ : List Elem} (h : s.HoldsQueue c q) (hop₁ : op₁.answer c q = (⟨st₁, dout₁⟩, q₁))
    (hop₂ : op₂.answer c q₁ = (⟨st₂, dout₂⟩, q₂)) :
    ∃ t u, Answers op₁.instr s st₁ t ∧ Answers op₂.instr t st₂ u ∧ u.element = dout₂ := by
  obtain ⟨t, hfirst, _, ht⟩ := h.answers hop₁
  obtain ⟨u, hsecond, helement, _⟩ := ht.answers hop₂
  exact ⟨t, u, hfirst, hsecond, helement⟩

/-- The comparator `is_full` is the length test of the queue (R63, R68). -/
theorem isFull_iff (h : s.HoldsQueue c q) :
    isFull s.blk.widx s.blk.ridx s.blk.cap = true ↔ c - 1 ≤ q.length := by
  obtain ⟨hw, _⟩ := h.inv.indices h.active
  rw [isFull_of_lt _ hw, decide_eq_true_iff, h.full_iff]

/-- The comparator `is_empty` is the emptiness of the queue (R62, R68). -/
theorem isEmpty_iff (h : s.HoldsQueue c q) :
    isEmpty s.blk.widx s.blk.ridx = true ↔ q = [] := by
  rw [isEmpty_eq, decide_eq_true_iff, h.empty_iff]

/-- A block holds at most `CAP - 1` elements (R65). -/
theorem length_le (h : s.HoldsQueue c q) : q.length ≤ c - 1 := by
  obtain ⟨hw, _⟩ := h.inv.indices h.active
  rw [h.holds.length_eq, ← h.cap]
  exact Block.count_le hw

end State.HoldsQueue

/-! ### The obligations -/

/-- Settles O38: the bounded queue tells the orders apart. With `CAP >= 2` a full queue has an
element at its front, whose POP makes room, and an empty queue has room for one. -/
theorem pushAndPopOrderIsObservable : Obligations.PushAndPopOrderIsObservable := by
  intro s e hs hp hcap
  obtain ⟨q, hq⟩ := hs.exists_holds hp
  have h : s.HoldsQueue s.blk.cap q := ⟨hs, hp, rfl, hq⟩
  have hroomEmpty : ([] : List Elem).length < s.blk.cap - 1 := Nat.sub_pos_of_lt hcap
  refine ⟨fun hfull => ?full, fun hempty => ?empty⟩
  case full =>
    have hmin := h.isFull_iff.mp hfull
    have hmax := h.length_le
    cases q with
    | nil => exact absurd hmin (Nat.not_le_of_lt hroomEmpty)
    | cons front rest =>
      have hroom : rest.length < s.blk.cap - 1 := hmax
      obtain ⟨t, u, hpop, hpush, _⟩ :=
        h.answers_twice (QueueOp.answer_pop_cons _ front rest) (QueueOp.answer_push_of_lt e hroom)
      obtain ⟨t', u', hpush', hpop', _⟩ :=
        h.answers_twice (QueueOp.answer_push_of_le e hmin) (QueueOp.answer_pop_cons _ front rest)
      exact ⟨⟨t, u, hpop, hpush⟩, ⟨t', u', hpush', hpop'⟩⟩
  case empty =>
    obtain rfl := h.isEmpty_iff.mp hempty
    obtain ⟨t', u', hpop', hpush', _⟩ :=
      h.answers_twice (QueueOp.answer_pop_nil _) (QueueOp.answer_push_of_lt e hroomEmpty)
    exact ⟨
      h.answers_twice (QueueOp.answer_push_of_lt e hroomEmpty) (QueueOp.answer_pop_cons _ e []),
      ⟨t', u', hpop', hpush'⟩⟩

end Sys2Proof.Machine
